-- ==== Sys2Proof/Word.lean ====
section
/-! DEFINITION. The two word types of the block: a byte, and the 64-bit operation word (00_scope.md R12, R13, 30_encoding.md R90). -/

namespace Sys2Proof

/-- A byte: a Device Bitmap byte, a surface byte, a bus byte (20_memory.md R66). Bit 0 is the least significant (R12). -/
abbrev Byte := BitVec 8

/-- The 64-bit operation word of 30_encoding.md R90. -/
abbrev OpWord := BitVec 64

end Sys2Proof
end

