-- ==== Sys2Proof/Config.lean ====
section
/-! DEFINITION. What is fixed for this hardware (00_scope.md R8), the block's parameters and agents (10_state.md R27,
R46, 00_scope.md R6), and the free values: opaque constants, which no proof can see into. -/

namespace Sys2Proof

/-- When the single-flight token is released: the parameter `GATE_RELEASE` (10_state.md R27, 90_conflicts.md C3). -/
inductive GateRelease where
  /-- The token is cleared when the job completes: the spec's default. -/
  | onComplete
  /-- The token is cleared when the worker starts the job. -/
  | onStart
  deriving DecidableEq, Repr, Inhabited

/-- The three issuing contexts (60_exceptions.md R283). -/
inductive Issuer where
  | timer
  | worker
  | host
  deriving DecidableEq, Repr, Inhabited

/-- The owner of a bus write (10_state.md R37). -/
inductive Owner where
  | worker
  | host
  deriving DecidableEq, Repr, Inhabited

/-- The transport's answer to a bus write (00_scope.md R18). -/
inductive BusResult where
  | ok
  | fail
  deriving DecidableEq, Repr, Inhabited

/-- The Generic Surface, the SURF agent's (20_memory.md R62): its width, height and stride as it reports them, and its
bytes in index order.  The dimensions are integers, so that the checks `Ws ≥ 0` and `Hs ≥ 0` of 42_pixel_packing.md
R190 have something to refuse. -/
structure Surface where
  ws : Int
  hs : Int
  stride : Int
  bytes : List Byte
  deriving DecidableEq, Repr, Inhabited

/-- One step of one agent, as a step line of 30_encoding.md R127 names it. -/
inductive AgentStep where
  /-- An agent presents an operation word (`T:`, `W:`, `H:` of R127). -/
  | op (issuer : Issuer) (w : OpWord)
  /-- A sender takes its issue step, the step being named by the write's bytes (the bus rows of the opcode table). -/
  | write (issuer : Issuer) (bytes : List Byte)
  /-- `H.ISSUE`, the HOST's issue step (43_protocol_encoder.md R224). -/
  | hostIssue
  /-- `H.RELEASE`, TEARDOWN's drain-and-release step (41_scheduler_dispatcher.md R153). -/
  | hostRelease
  /-- `BUS.OK` or `BUS.FAIL`, the BUS agent's completion (43_protocol_encoder.md R212). -/
  | bus (r : BusResult)
  /-- `SURF.WRITE i, b`: surface byte `i` becomes `b`. -/
  | surfWrite (i : Nat) (b : Byte)
  /-- `SURF.DIMS w, h, s`: the surface's dimensions change. -/
  | surfDims (ws hs stride : Int)
  /-- Any change of the surface at one step (20_memory.md R63: any byte and any dimension, at any step). -/
  | surfPut (s : Surface)
  deriving DecidableEq, Repr, Inhabited

/-- `W`, the device width in pixels and the columns of a page (R8). -/
def Config.width : Nat := 128

/-- `H`, the device height in pixels (R8). -/
def Config.height : Nat := 64

/-- `NPAGES` (R8). -/
def Config.npages : Nat := 8

/-- `DBSIZE`, the Device Bitmap's size in bytes (R8). -/
def Config.dbSize : Nat := 1024

/-- `CHUNK`, the data bytes of a data write (R8). -/
def Config.chunk : Nat := 16

/-- `NCHUNKS`, the data writes of a page (R8). -/
def Config.nchunks : Nat := 8

/-- `SLOTS`, the bus writes of a page (R8). -/
def Config.slots : Nat := 11

/-- `NTX_FLUSH`, the bus writes of a complete flush (R8). -/
def Config.ntxFlush : Nat := 88

/-- `NTX_INIT`, the bus writes of a complete initialization (R8). -/
def Config.ntxInit : Nat := 21

/-- `T_FLUSH` in milliseconds (R8); no rule depends on it (70_reset_and_hazards.md R318). -/
def Config.flushIntervalMs : Nat := 300

/-- `CONTRAST_DEFAULT` (R8). -/
def Config.contrastDefault : Byte := 0x7F

/-- `CB_CMD`, the control byte that opens a command write (R8). -/
def Config.cbCmd : Byte := 0x00

/-- `CB_DATA`, the control byte that opens a data write (R8). -/
def Config.cbData : Byte := 0x40

/-- FREE VALUE: the byte that the Device Bitmap holds at index `i` at reset (10_state.md R21: "a model draws each byte
freely at reset (no law)").  Log 6. -/
opaque Config.dbAtReset (i : Nat) : Byte

/-- FREE VALUE: the Generic Surface at reset (20_memory.md R63).  Log 8. -/
opaque Config.surfaceAtReset : Surface

/-- FREE VALUE: the `n`-th step drawn when no agent's step is pending: any agent, any operation, any transport answer
(10_state.md R46, 93_implementation_defined.md U6, U9, U10, U11).  Log 1. -/
opaque Config.agentStep (n : Nat) : AgentStep

end Sys2Proof
end

