-- ==== Sys2Proof/Machine/State.lean ====
section
/-! DEFINITION. The block's state, plain data: the tuple of 10_state.md R20, the parameter and the surface that a step
reads, and the model's own four fields; and the state at reset (70_reset_and_hazards.md R300). -/

namespace Sys2Proof.Machine

/-- The Device Bitmap's contents: (index, byte) pairs by rising index.  An index that is not listed has not been written
since reset, and reads as its free draw `Config.dbAtReset` (log 6). -/
abbrev Memory := List Host.Cell

/-- `FRES` (10_state.md R29). -/
inductive FlushResult where
  | none
  | resOk
  | eBus
  deriving DecidableEq, Repr

/-- `HRES` (10_state.md R36). -/
inductive HostResult where
  | none
  | resOk
  | eBus
  | eInval
  deriving DecidableEq, Repr

/-- `HS`, the host sequencer's state (10_state.md R35). -/
inductive HostSeq where
  | idle
  | init
  | contrast
  | cmd
  | data
  | teardown
  deriving DecidableEq, Repr

/-- `BUS`, the outstanding bus write (10_state.md R37). -/
inductive Bus where
  | free
  | busy (owner : Owner) (bytes : List Byte)
  deriving DecidableEq, Repr

/-- An event of `TRACE` (10_state.md R38). -/
inductive TxEvent where
  | issue (owner : Owner) (bytes : List Byte)
  | done (owner : Owner) (r : BusResult)
  deriving DecidableEq, Repr

/-- An event of `LOG` (60_exceptions.md R285). -/
inductive LogEvent where
  | warnOob (x y : Int)
  | flushErr (page : BitVec 3) (slot : BitVec 4)
  deriving DecidableEq, Repr

/-- Why an operation is refused (60_exceptions.md R281).  A refusal is a next state of the block: it sets `REFUSED`. -/
inductive RefuseReason where
  | reservedOpcode
  | reservedMode
  | reservedBits
  | wrongIssuer
  | released
  | hostBusy
  | dbBusy
  | notInitialized
  | initWhileActive
  | malformedSurface
  deriving DecidableEq, Repr

/-- The faults of the machine: none.  "The block has no fault state: none of the source's conditions stops the block"
(60_exceptions.md R280), so nothing raises one (safe: no step of the model can end in a fault). -/
inductive Fault where
  deriving DecidableEq, Repr

/-- The refusals that stop the model. -/
inductive Refusal where
  /-- Raised only by an arm of `exec` whose instruction has no meaning yet; safe, since nothing is claimed of a run that
  stops there.  No arm of this model raises it: the spec's own refusals (R281) are next states. -/
  | notModelled (mnemonic : String)
  deriving DecidableEq, Repr

/-- The state: the tuple of 10_state.md R20 under the spec's names, then what stands outside it. -/
structure State where
  /-- `DB`, the Device Bitmap; `none` once TEARDOWN has released it (R21, R22). -/
  db : Option Memory
  /-- `GATE`, the Pending-Flush Token (R23). -/
  gate : Bool
  /-- `JOBQ`: a job is admitted and not started (R24). -/
  jobq : Bool
  /-- `JOBRUN`: a job is running (R25). -/
  jobrun : Bool
  /-- `FPAGE`, the flush sequencer's page (R28). -/
  fpage : BitVec 3
  /-- `FSLOT`, the flush sequencer's write within the page (R28). -/
  fslot : BitVec 4
  /-- `FRES`, the result of the last finished flush (R29). -/
  fres : FlushResult
  /-- `ARMED` (R30). -/
  armed : Bool
  /-- `LINK` (R31). -/
  link : Bool
  /-- `ALIVE` (R32). -/
  alive : Bool
  /-- `INITOK` (R33). -/
  initok : Bool
  /-- `CONTRAST` (R34). -/
  contrast : Byte
  /-- `HS` (R35). -/
  hs : HostSeq
  /-- `HIDX` (R35). -/
  hidx : BitVec 5
  /-- `HARG` (R35). -/
  harg : List Byte
  /-- `HRES` (R36). -/
  hres : HostResult
  /-- `HVAL` (R36). -/
  hval : Byte
  /-- `BUS` (R37). -/
  bus : Bus
  /-- `TRACE`, oldest event first (R38). -/
  trace : List TxEvent
  /-- `LOG`, oldest event first (R39). -/
  log : List LogEvent
  /-- `REFUSED` (R40). -/
  refused : Bool
  /-- `GATE_RELEASE`, a parameter that no step writes (R27; log 9). -/
  gateRelease : GateRelease
  /-- The SURF agent's surface, which the block only reads (20_memory.md R62, R63; log 8). -/
  surf : Surface
  /-- The model's own: the reason of the last refusal (60_exceptions.md R281; log 3). -/
  reason : Option RefuseReason
  /-- The model's own: the context that issues the operation being taken (30_encoding.md R99; log 2). -/
  actor : Issuer
  /-- The model's own: the agents' steps to come, next first (log 1). -/
  pending : List AgentStep
  /-- The model's own: how many steps were drawn from `Config.agentStep` (log 1). -/
  draws : Nat
  deriving DecidableEq, Repr

/-- The block at the end of attach (70_reset_and_hazards.md R300): the reset column of 10_state.md R20.  The last six
fields are not the block's: logs 8, 9 and 16 say why they have these values. -/
def State.reset : State where
  db := some []
  gate := false
  jobq := false
  jobrun := false
  fpage := 0
  fslot := 0
  fres := .none
  armed := false
  link := true
  alive := true
  initok := false
  contrast := Config.contrastDefault
  hs := .idle
  hidx := 0
  harg := []
  hres := .none
  hval := 0
  bus := .free
  trace := []
  log := []
  refused := false
  gateRelease := .onComplete
  surf := Config.surfaceAtReset
  reason := none
  actor := .host
  pending := []
  draws := 0

/-- What a step answers. -/
abbrev Answer := Host.Outcome State Fault Refusal

end Sys2Proof.Machine
end

