-- ==== Sys2Proof/Machine/Ops.lean ====
section
/-! DEFINITION. The named operations over memory and registers: the Device Bitmap's byte accesses (20_memory.md R60,
R66, R68), the issue of a bus write (43_protocol_encoder.md R211), the end of a host operation (60_exceptions.md R270,
R277), and the one shared refusal (60_exceptions.md R281) with the checks that come before an operation. -/

namespace Sys2Proof.Machine

/-- The byte written at index `a` since reset, if any. -/
def Memory.get? : Memory → Nat → Option Byte
  | [], _ => none
  | (b, u) :: m, a => if b = a then some u else Memory.get? m a

/-- `MemRead(DB, a, 1)` (00_scope.md R14).  An index nothing has written since reset reads as its free draw
(10_state.md R21; log 6). -/
def Memory.read (m : Memory) (a : Nat) : Byte := (Memory.get? m a).getD (Config.dbAtReset a)

/-- `MemWrite(DB, a, 1, v)` (00_scope.md R14), keeping the indices in rising order. -/
def Memory.write : Memory → Nat → Byte → Memory
  | [], a, v => [(a, v)]
  | (b, u) :: m, a, v =>
    if a < b then (a, v) :: (b, u) :: m
    else if a = b then (a, v) :: m
    else (b, u) :: Memory.write m a v

/-- The canonical form: indices strictly rising and inside `DB[0..1023]`.  With it, two memories in which the same
indices hold the same written bytes are the same list. -/
abbrev Memory.wf (m : Memory) : Prop :=
  m.Pairwise (fun c d => c.1 < d.1) ∧ ∀ c ∈ m, c.1 < Config.dbSize

/-- `BusIssue(owner, bytes)` (43_protocol_encoder.md R211), for a sender that found `BUS = FREE`. -/
def busIssue (owner : Owner) (bytes : List Byte) (s : State) : State :=
  { s with bus := .busy owner bytes, trace := s.trace ++ [.issue owner bytes] }

/-- The result of a host operation that finishes in its own step (10_state.md R36). -/
def finish (r : HostResult) (v : Byte) (s : State) : State := { s with hres := r, hval := v }

/-- The end of a host sequence with result `r`: the sequencer returns to idle (60_exceptions.md R277, R278). -/
def hostEnd (r : HostResult) (s : State) : State := finish r 0 { s with hs := .idle, hidx := 0 }

/-- `refuse(reason)` (60_exceptions.md R281): "A refused step changes nothing but `REFUSED <- 1`".  The reason is kept
in the model's own field.  DESIGN CHOICE, log 3. -/
def refuse (r : RefuseReason) (s : State) : State := { s with refused := true, reason := some r }

/-- A step that is not enabled is not taken: the agent holds (60_exceptions.md R280).  DESIGN CHOICE, log 5. -/
def hold (s : State) : State := s

/-- `ALIVE = 1`, then the issuer check: after release "every operation presented by any agent is refused with reason
`RELEASED`" (41_scheduler_dispatcher.md R154), before it an agent not listed for the operation is refused with
`WRONG_ISSUER` (30_encoding.md R99). -/
def agentCheck (a : Issuer) (s : State) : Option RefuseReason :=
  if s.alive = false then some .released else if s.actor = a then none else some .wrongIssuer

/-- What every HOST operation requires (60_exceptions.md R283). -/
def hostCheck (s : State) : Option RefuseReason :=
  match agentCheck .host s with
  | some r => some r
  | none => if s.hs = .idle then none else some .hostBusy

/-- An operation of the TIMER or the WORKER: refused where `agentCheck` says so. -/
def agentDo (a : Issuer) (s : State) (f : State → State) : Answer :=
  match agentCheck a s with
  | some r => .next (refuse r s)
  | none => .next (f s)

/-- An operation of the HOST: refused where `hostCheck` says so. -/
def hostDo (s : State) (f : State → State) : Answer :=
  match hostCheck s with
  | some r => .next (refuse r s)
  | none => .next (f s)

/-- An operation that needs the Device Bitmap.  A released one holds no value and no operation may read or write it
(10_state.md R22), so the operation is refused, as R154 refuses every operation then (log 7). -/
def withDb (s : State) (f : Memory → State) : State :=
  match s.db with
  | none => refuse .released s
  | some m => f m

end Sys2Proof.Machine
end

