-- ==== Sys2Proof/Machine/Flags.lean ====
section
/-! DEFINITION. The status bits' rules (10_state.md R42) where more than one operation shares them: the token's test and
set (41_scheduler_dispatcher.md R143), its release under either value of GATE_RELEASE (R146, R147), job end (R147), and
the numbers of the result codes (60_exceptions.md R270). -/

namespace Sys2Proof.Machine

/-- The admission of REQ_FLUSH: an atomic test and set of `GATE`; a request that finds it set is dropped
(41_scheduler_dispatcher.md R143). -/
def admitJob (s : State) : State := if s.gate then s else { s with gate := true, jobq := true }

/-- The token after JOB_START: released under `ON_START` (41_scheduler_dispatcher.md R146). -/
def gateAtStart (s : State) : Bool :=
  match s.gateRelease with
  | .onStart => false
  | .onComplete => s.gate

/-- The token after job end: released under `ON_COMPLETE` (41_scheduler_dispatcher.md R147). -/
def gateAtEnd (s : State) : Bool :=
  match s.gateRelease with
  | .onComplete => false
  | .onStart => s.gate

/-- `JobEnd(r)` (41_scheduler_dispatcher.md R147). -/
def jobEnd (r : FlushResult) (s : State) : State := { s with jobrun := false, fres := r, gate := gateAtEnd s }

/-- The result codes (60_exceptions.md R270); `NONE` is not a result. -/
def HostResult.code : HostResult → Option Nat
  | .none => Option.none
  | .resOk => some 0
  | .eBus => some 1
  | .eInval => some 2

/-- The result codes of a flush (60_exceptions.md R270, 10_state.md R29). -/
def FlushResult.code : FlushResult → Option Nat
  | .none => Option.none
  | .resOk => some 0
  | .eBus => some 1

/-- `E_NOMEM`, reserved and never produced by the block (60_exceptions.md R270). -/
def codeNoMem : Nat := 3

end Sys2Proof.Machine
end

