-- ==== Sys2Proof/Syntax.lean ====
section
/-! DEFINITION. The instructions: one constructor per row of spec/opcode_table.json, that is the operations of
30_encoding.md R91, the reserved words of R98, the two bus write formats of R101 and the command bytes of R107 to R123. -/

namespace Sys2Proof

/-- One constructor per row of the opcode table.  The rows of format OPWORD64 are operation words (R90); the rows
`cmdw`, `dataw` and `cb…` are bus writes, named by what stands on the bus (R101, R107 to R123). -/
inductive Instr where
  | tick
  | reqFlush
  | pixelSet (x y : BitVec 16)
  | pixelClear (x y : BitVec 16)
  | pixelToggle (x y : BitVec 16)
  | sync
  | flushStep
  | cmd (c : Byte)
  | data (p k : BitVec 3)
  | init
  | contrastGet
  | contrastSet (v : BitVec 32) (nn : Bool)
  | arm
  | disarm
  | teardown
  | jobStart
  /-- `OPC = 0x0`, with the word's other 60 bits (R98). -/
  | reservedOpc0 (rest : BitVec 60)
  /-- `OPC = 0xF`, with the word's other 60 bits (R98). -/
  | reservedOpcF (rest : BitVec 60)
  /-- `OPC = 0x3` with `MODE = 3`, with the word's other 58 bits (R98). -/
  | reservedPixelMode3 (rest : BitVec 58)
  /-- The command write `[0x00, c]` (R101, R214). -/
  | cmdw (c : Byte)
  /-- The data chunk write `[0x40, b0, …, b15]` (R101, R215); well formed when it holds sixteen bytes. -/
  | dataw (bs : List Byte)
  | cbDisplayOff
  | cbClockDivide
  | cbMultiplex
  | cbDisplayOffset
  | cbStartLine
  | cbSegmentRemap
  | cbComScan
  | cbComPins
  | cbInitContrast
  | cbEntireDisplay
  | cbNormalPolarity
  | cbChargePump
  | cbAddressingMode
  | cbDisplayOn
  | cbSelectPage (p : BitVec 3)
  | cbColumnLow
  | cbColumnHigh
  | cbSetContrast
  deriving DecidableEq, Repr

end Sys2Proof
end

