-- ==== Sys2Proof/WellFormed.lean ====
section
/-! DEFINITION. Well-formedness of an instruction: every operand's width is in its type, so one check remains, the
sixteen bytes of a data chunk write (30_encoding.md R101). -/

namespace Sys2Proof

/-- A data chunk write carries exactly `CHUNK` data bytes (R101); every other instruction is well formed by its type. -/
def WellFormed : Instr → Bool
  | .dataw bs => bs.length == Config.chunk
  | .tick | .reqFlush | .pixelSet _ _ | .pixelClear _ _ | .pixelToggle _ _ | .sync | .flushStep | .cmd _ | .data _ _
  | .init | .contrastGet | .contrastSet _ _ | .arm | .disarm | .teardown | .jobStart | .reservedOpc0 _
  | .reservedOpcF _ | .reservedPixelMode3 _ | .cmdw _ | .cbDisplayOff | .cbClockDivide | .cbMultiplex
  | .cbDisplayOffset | .cbStartLine | .cbSegmentRemap | .cbComScan | .cbComPins | .cbInitContrast | .cbEntireDisplay
  | .cbNormalPolarity | .cbChargePump | .cbAddressingMode | .cbDisplayOn | .cbSelectPage _ | .cbColumnLow
  | .cbColumnHigh | .cbSetContrast => true

end Sys2Proof
end

