-- ==== Sys2Proof/Decode.lean ====
section
/-! DEFINITION. The decoder of 30_encoding.md R100 (operation words) and R101, R102 (bus writes), and after it the
encoder, written from the same tables (R90 to R97, R103, R107 to R123). -/

namespace Sys2Proof

/-- Why bits spell no instruction. -/
inductive DecodeError where
  /-- A must-be-zero bit of an operation word is 1 (R97). -/
  | reservedBits
  /-- The bytes are no write the block emits (R102). -/
  | notEmitted
  deriving DecidableEq, Repr

/-- `w[lo+n-1 : lo]` (00_scope.md R12). -/
def field (w : OpWord) (lo n : Nat) : BitVec n := w.extractLsb' lo n

/-- A no-operand operation: every bit above `OPC` is 0 (R92). -/
def decodeNoOperand (w : OpWord) (i : Instr) : Except DecodeError Instr :=
  if field w 4 60 = 0 then .ok i else .error .reservedBits

/-- `OPC = 0x3`: `MODE` picks the row, `MODE = 3` is reserved, and is so before the must-be-zero bits are looked at
(R93, R98, R100). -/
def decodePixel (w : OpWord) : Except DecodeError Instr :=
  if field w 4 2 = 3 then .ok (.reservedPixelMode3 (field w 6 58))
  else if field w 6 10 = 0 ∧ field w 48 16 = 0 then
    if field w 4 2 = 0 then .ok (.pixelSet (field w 16 16) (field w 32 16))
    else if field w 4 2 = 1 then .ok (.pixelClear (field w 16 16) (field w 32 16))
    else .ok (.pixelToggle (field w 16 16) (field w 32 16))
  else .error .reservedBits

/-- `OPC = 0x6` (R95, R100). -/
def decodeCmd (w : OpWord) : Except DecodeError Instr :=
  if field w 4 4 = 0 ∧ field w 16 48 = 0 then .ok (.cmd (field w 8 8)) else .error .reservedBits

/-- `OPC = 0x7` (R96, R100). -/
def decodeData (w : OpWord) : Except DecodeError Instr :=
  if field w 4 4 = 0 ∧ field w 14 2 = 0 ∧ field w 16 48 = 0 then .ok (.data (field w 8 3) (field w 11 3))
  else .error .reservedBits

/-- `OPC = 0xA` (R94, R100). -/
def decodeContrastSet (w : OpWord) : Except DecodeError Instr :=
  if field w 4 2 = 0 ∧ field w 7 1 = 0 ∧ field w 8 8 = 0 ∧ field w 48 16 = 0 then
    .ok (.contrastSet (field w 16 32) (field w 6 1 = 1))
  else .error .reservedBits

/-- `Decode(w)` of R100, total on every 64-bit word.  The words of R98 decode to their reserved row, whose meaning is the
refusal R98 gives. -/
def decodeWord (w : OpWord) : Except DecodeError Instr :=
  match (field w 0 4).toNat with
  | 0x0 => .ok (.reservedOpc0 (field w 4 60))
  | 0x1 => decodeNoOperand w .tick
  | 0x2 => decodeNoOperand w .reqFlush
  | 0x3 => decodePixel w
  | 0x4 => decodeNoOperand w .sync
  | 0x5 => decodeNoOperand w .flushStep
  | 0x6 => decodeCmd w
  | 0x7 => decodeData w
  | 0x8 => decodeNoOperand w .init
  | 0x9 => decodeNoOperand w .contrastGet
  | 0xA => decodeContrastSet w
  | 0xB => decodeNoOperand w .arm
  | 0xC => decodeNoOperand w .disarm
  | 0xD => decodeNoOperand w .teardown
  | 0xE => decodeNoOperand w .jobStart
  | _ => .ok (.reservedOpcF (field w 4 60))

/-- The row of the opcode table that names a command byte: the rows `CB.…` where one does, `CMDW` otherwise (R107 to
R123).  0x81 has two rows, `CB.INIT_CONTRAST` and `CB.SET_CONTRAST`, of one word: the first is read.  DESIGN CHOICE,
log 11. -/
def commandRow (c : Byte) : Instr :=
  match c.toNat with
  | 0xAE => .cbDisplayOff
  | 0xD5 => .cbClockDivide
  | 0xA8 => .cbMultiplex
  | 0xD3 => .cbDisplayOffset
  | 0x40 => .cbStartLine
  | 0xA1 => .cbSegmentRemap
  | 0xC8 => .cbComScan
  | 0xDA => .cbComPins
  | 0x81 => .cbInitContrast
  | 0xA4 => .cbEntireDisplay
  | 0xA6 => .cbNormalPolarity
  | 0x8D => .cbChargePump
  | 0x20 => .cbAddressingMode
  | 0xAF => .cbDisplayOn
  | 0x00 => .cbColumnLow
  | 0x10 => .cbColumnHigh
  | n => if n / 8 = 0x16 then .cbSelectPage (c.extractLsb' 0 3) else .cmdw c

/-- The length rule of R102: the first byte of a write determines its length. -/
def writeLength (control : Byte) : Option Nat :=
  if control = Config.cbCmd then some 2 else if control = Config.cbData then some 17 else none

/-- A bus write read back: `[0x00, c]` or `[0x40, b0, …, b15]`, and nothing else (R101, R102). -/
def decodeWrite : List Byte → Except DecodeError Instr
  | [] => .error .notEmitted
  | control :: rest =>
    if control = Config.cbCmd then
      match rest with
      | [c] => .ok (commandRow c)
      | _ => .error .notEmitted
    else if control = Config.cbData ∧ rest.length = Config.chunk then .ok (.dataw rest)
    else .error .notEmitted

/-- The bytes that a bus row's number stands for, first byte first.  The table numbers `BUS2` rows as
`byte0 << 8 | byte1` and `BUS17` rows by byte 0 alone; the bytes it gives no bits are 0. -/
def tableBytes (nbits w : Nat) : List Byte :=
  let given : List Byte := if nbits ≤ 8 then [BitVec.ofNat 8 w] else [BitVec.ofNat 8 (w / 256), BitVec.ofNat 8 w]
  match given with
  | [] => []
  | control :: rest => control :: rest ++ List.replicate ((writeLength control).getD 2 - given.length) 0

/-- Whether a row of `nbits` bits is a bus row: the operation words are the rows of 64 bits (R90, R126). -/
def isBusWidth (nbits : Nat) : Bool := nbits ≤ 16

/-- The instruction that the decoder reads from a word numbered as spec/opcode_table.json numbers it.  Log 12. -/
def decodeTableWord (nbits w : Nat) : Option Instr :=
  if isBusWidth nbits then (decodeWrite (tableBytes nbits w)).toOption
  else (decodeWord (BitVec.ofNat 64 w)).toOption

/-- What stands for an instruction outside the block: an operation word, or the bytes of a bus write. -/
inductive Encoded where
  | word (w : OpWord)
  | bytes (bs : List Byte)
  deriving DecidableEq, Repr

/-- The word whose field `OPC` is `opc` and whose other fields are given as their value times two to their lowest bit. -/
def packWord (opc fields : Nat) : Encoded := .word (BitVec.ofNat 64 (opc + fields))

/-- `OPC`, `MODE`, `X[31:16]`, `Y[47:32]` (R90, R93). -/
def encodePixel (mode : Nat) (x y : BitVec 16) : Encoded :=
  packWord 0x3 (mode * 2 ^ 4 + x.toNat * 2 ^ 16 + y.toNat * 2 ^ 32)

/-- The command write of a byte (R101). -/
def encodeCommand (c : Byte) : Encoded := .bytes [Config.cbCmd, c]

/-- `PAGESEL(p) = 0xB0 + p` (R103). -/
def pageSelect (p : BitVec 3) : Byte := 0xB0 + p.setWidth 8

/-- The encoder, from R90 to R97 for the operation words and R101 to R123 for the bus writes. -/
def encode : Instr → Encoded
  | .tick => packWord 0x1 0
  | .reqFlush => packWord 0x2 0
  | .pixelSet x y => encodePixel 0 x y
  | .pixelClear x y => encodePixel 1 x y
  | .pixelToggle x y => encodePixel 2 x y
  | .sync => packWord 0x4 0
  | .flushStep => packWord 0x5 0
  | .cmd c => packWord 0x6 (c.toNat * 2 ^ 8)
  | .data p k => packWord 0x7 (p.toNat * 2 ^ 8 + k.toNat * 2 ^ 11)
  | .init => packWord 0x8 0
  | .contrastGet => packWord 0x9 0
  | .contrastSet v nn => packWord 0xA (nn.toNat * 2 ^ 6 + v.toNat * 2 ^ 16)
  | .arm => packWord 0xB 0
  | .disarm => packWord 0xC 0
  | .teardown => packWord 0xD 0
  | .jobStart => packWord 0xE 0
  | .reservedOpc0 rest => packWord 0x0 (rest.toNat * 2 ^ 4)
  | .reservedOpcF rest => packWord 0xF (rest.toNat * 2 ^ 4)
  | .reservedPixelMode3 rest => packWord 0x3 (3 * 2 ^ 4 + rest.toNat * 2 ^ 6)
  | .cmdw c => encodeCommand c
  | .dataw bs => .bytes (Config.cbData :: bs)
  | .cbDisplayOff => encodeCommand 0xAE
  | .cbClockDivide => encodeCommand 0xD5
  | .cbMultiplex => encodeCommand 0xA8
  | .cbDisplayOffset => encodeCommand 0xD3
  | .cbStartLine => encodeCommand 0x40
  | .cbSegmentRemap => encodeCommand 0xA1
  | .cbComScan => encodeCommand 0xC8
  | .cbComPins => encodeCommand 0xDA
  | .cbInitContrast => encodeCommand 0x81
  | .cbEntireDisplay => encodeCommand 0xA4
  | .cbNormalPolarity => encodeCommand 0xA6
  | .cbChargePump => encodeCommand 0x8D
  | .cbAddressingMode => encodeCommand 0x20
  | .cbDisplayOn => encodeCommand 0xAF
  | .cbSelectPage p => encodeCommand (pageSelect p)
  | .cbColumnLow => encodeCommand 0x00
  | .cbColumnHigh => encodeCommand 0x10
  | .cbSetContrast => encodeCommand 0x81

/-- Reading back what the encoder gives: a word by R100, a write by R102. -/
def decodeEncoded : Encoded → Except DecodeError Instr
  | .word w => decodeWord w
  | .bytes bs => decodeWrite bs

/-- The row that the decoder names an instruction by.  It differs from the instruction for two rows whose words belong
to another row too: a `CMDW` of a byte that a `CB` row names, and `CB.SET_CONTRAST`.  Log 11. -/
def canonical : Instr → Instr
  | .cmdw c => commandRow c
  | .cbSetContrast => .cbInitContrast
  | i => i

end Sys2Proof
end

