-- ==== Sys2Proof/Machine/Operands.lean ====
section
/-! DEFINITION. The operand forms and the pure functions of the spec: layouts (20_memory.md R61, R62), bounds
(42_pixel_packing.md R182), the surface contract (R190), framing (43_protocol_encoder.md R214 to R216), the
initialization script (44_init_contrast.md R241), the contrast input (R249), and each sender's next write. -/

namespace Sys2Proof.Machine

/-- A pixel coordinate, `sext_16` of its field (30_encoding.md R93). -/
def coord (x : BitVec 16) : Int := x.toInt

/-- `InBounds(x, y)` (42_pixel_packing.md R182). -/
def inBounds (x y : Int) : Bool := decide (0 ≤ x ∧ x < Config.width ∧ 0 ≤ y ∧ y < Config.height)

/-- `DBIndex(x, y)` (20_memory.md R61). -/
def dbIndex (x y : Nat) : Nat := x + y / 8 * Config.width

/-- `1 << DBBit(x, y)`, with `DBBit(x, y) = y mod 8` (20_memory.md R61, 42_pixel_packing.md R183). -/
def dbMask (y : Nat) : Byte := 1 <<< (y % 8)

/-- The pixel at `(x, y)` read back from the Device Bitmap (42_pixel_packing.md R194). -/
def readPixel (m : Memory) (x y : Nat) : Bool := (Memory.read m (dbIndex x y)).getLsbD (y % 8)

/-- `SurfBit(S, x, y)` (42_pixel_packing.md R181, 20_memory.md R62).  The index is inside the surface's bytes wherever
the contract of R190 holds (20_memory.md R71). -/
def surfBit (S : Surface) (x y : Nat) : Bool := (S.bytes.getD (y * S.stride.toNat + x / 8) 0).getLsbD (x % 8)

/-- `SurfaceOK(S)` (42_pixel_packing.md R190). -/
def surfaceOk (S : Surface) : Bool :=
  decide (0 ≤ S.ws ∧ 0 ≤ S.hs ∧ (S.ws + 7) / 8 ≤ S.stride ∧ S.stride * S.hs ≤ S.bytes.length)

/-- The modes of the PIXEL operations (42_pixel_packing.md R183). -/
inductive PixelMode where
  | set
  | clear
  | toggle
  deriving DecidableEq, Repr

/-- What a mode does to a byte under a mask (42_pixel_packing.md R183). -/
def PixelMode.apply (mode : PixelMode) (b m : Byte) : Byte :=
  match mode with
  | .set => b ||| m
  | .clear => b &&& ~~~m
  | .toggle => b ^^^ m

/-- What a pixel operation works on: the Device Bitmap and the log. -/
structure Raster where
  db : Memory
  log : List LogEvent
  deriving DecidableEq, Repr

/-- `PixelOp(mode, x, y)` (42_pixel_packing.md R183, R187). -/
def pixelOp (mode : PixelMode) (x y : Int) (r : Raster) : Raster :=
  if inBounds x y then
    let i := dbIndex x.toNat y.toNat
    { r with db := Memory.write r.db i (mode.apply (Memory.read r.db i) (dbMask y.toNat)) }
  else { r with log := r.log ++ [.warnOob x y] }

/-- `PIXEL.WRITE x, y, b` (30_encoding.md R128). -/
def pixelWrite (x y : Int) (b : Bool) (r : Raster) : Raster := pixelOp (if b then .set else .clear) x y r

/-- Row `y` of the pixel loop: columns ascending (42_pixel_packing.md R188, R191). -/
def syncRow (S : Surface) (r : Raster) (y : Nat) : Raster :=
  (List.range S.ws.toNat).foldl (fun r (x : Nat) => pixelWrite x y (surfBit S x y) r) r

/-- The pixel loop of `SyncBody` for a snapshot that meets the contract: rows ascending (42_pixel_packing.md R188). -/
def syncLoop (S : Surface) (r : Raster) : Raster := (List.range S.hs.toNat).foldl (syncRow S) r

/-- `SyncBody` (42_pixel_packing.md R188): one snapshot, the contract check of R190, the pixel loop. -/
def syncBody (S : Surface) (r : Raster) : Option Raster := if surfaceOk S then some (syncLoop S r) else none

/-- `CMDW(c)` (43_protocol_encoder.md R214). -/
def commandWrite (c : Byte) : List Byte := [Config.cbCmd, c]

/-- `DATAW(p, k)` (43_protocol_encoder.md R215, 30_encoding.md R105). -/
def dataWrite (m : Memory) (p k : Nat) : List Byte :=
  Config.cbData :: (List.range Config.chunk).map fun j => Memory.read m (p * Config.width + Config.chunk * k + j)

/-- `SlotBytes(p, s)` (43_protocol_encoder.md R216); the slots 11 to 15 are never held and have no write (log 14). -/
def slotBytes (m : Memory) (p : BitVec 3) (s : BitVec 4) : Option (List Byte) :=
  match s.toNat with
  | 0 => some (commandWrite (pageSelect p))
  | 1 => some (commandWrite 0x00)
  | 2 => some (commandWrite 0x10)
  | n => if n ≤ 10 then some (dataWrite m p.toNat (n - 3)) else none

/-- `SCRIPT[0..20]` (44_init_contrast.md R241). -/
def script : List Byte :=
  [0xAE, 0xD5, 0x80, 0xA8, 0x3F, 0xD3, 0x00, 0x40, 0xA1, 0xC8, 0xDA, 0x12, 0x81, 0x7F, 0xA4, 0xA6, 0x8D, 0x14, 0x20,
    0x02, 0xAF]

/-- The contrast input, `sext_32` of its field: the accepted value, or none where R249 rejects it
(44_init_contrast.md R249, 30_encoding.md R94). -/
def contrastInput (v : BitVec 32) (nn : Bool) : Option Byte :=
  if nn ∨ v.toInt < 0 ∨ 255 < v.toInt then none else some (v.setWidth 8)

/-- The bytes that the HOST's issue step sends (43_protocol_encoder.md R224); none where no host sequence is sending,
or at a position the sequences never hold (log 14). -/
def hostNextWrite (s : State) : Option (List Byte) :=
  match s.hs with
  | .cmd | .data => some s.harg
  | .init => (script[s.hidx.toNat]?).map commandWrite
  | .contrast => if s.hidx = 0 then some (commandWrite 0x81) else s.harg.head?.map commandWrite
  | .idle | .teardown => none

/-- The bytes that the WORKER's next FLUSH_STEP sends (43_protocol_encoder.md R217). -/
def workerNextWrite (s : State) : Option (List Byte) :=
  if s.alive && s.jobrun then s.db.bind fun m => slotBytes m s.fpage s.fslot else none

/-- Each sender's next write. -/
def nextWrite : Owner → State → Option (List Byte)
  | .worker => workerNextWrite
  | .host => hostNextWrite

/-- The sender that a context is; the signalling context issues no bus writes (60_exceptions.md R283). -/
def senderOf : Issuer → Option Owner
  | .timer => none
  | .worker => some .worker
  | .host => some .host

/-- The context that R91 lists for an operation code on its own: TIMER for TICK, WORKER for FLUSH_STEP and JOB_START,
HOST for the others (30_encoding.md R91, R99). -/
def listedIssuer (w : OpWord) : Issuer :=
  match (field w 0 4).toNat with
  | 0x1 => .timer
  | 0x5 | 0xE => .worker
  | _ => .host

end Sys2Proof.Machine
end

