-- ==== Sys2Proof/Machine/Encoder.lean ====
section
/-! DEFINITION. The serial protocol encoder (43_protocol_encoder.md): FLUSH_STEP, CMD, DATA, the HOST's issue step, and
the BUS agent's completion with the continuations of its owner (R212, R218, R219, R225, 44_init_contrast.md R244, R245,
R251, R252). -/

namespace Sys2Proof.Machine

/-- A sender's issue step: enabled when it has a next write and `BUS = FREE`; else it holds (R211, R213). -/
def issueNext (o : Owner) (s : State) : State :=
  match s.bus, nextWrite o s with
  | .free, some bytes => busIssue o bytes s
  | _, _ => hold s

/-- `FLUSH_STEP` (R217). -/
def execFlushStep (s : State) : Answer := agentDo .worker s (issueNext .worker)

/-- `CMD c`, the presenting step (R222). -/
def execCmd (c : Byte) (s : State) : Answer :=
  hostDo s fun s => { s with hs := .cmd, hidx := 0, harg := commandWrite c }

/-- `DATA p, k`, the presenting step: the Device Bitmap is read now (R223, R215). -/
def execData (p k : BitVec 3) (s : State) : Answer :=
  hostDo s fun s => withDb s fun m => { s with hs := .data, hidx := 0, harg := dataWrite m p.toNat k.toNat }

/-- `HostIssue` (R224). -/
def hostIssue (s : State) : State := issueNext .host s

/-- `WorkerContinue(r)` (R218, R219). -/
def workerContinue (r : BusResult) (s : State) : State :=
  match r with
  | .ok =>
    if s.fslot.toNat < 10 then { s with fslot := s.fslot + 1 }
    else if s.fpage.toNat < 7 then { s with fpage := s.fpage + 1, fslot := 0 }
    else jobEnd .resOk s
  | .fail => jobEnd .eBus { s with log := s.log ++ [.flushErr s.fpage s.fslot] }

/-- The result of a host write (R225). -/
def resultOf : BusResult → HostResult
  | .ok => .resOk
  | .fail => .eBus

/-- INIT's continuation (44_init_contrast.md R244, R245). -/
def initContinue (r : BusResult) (s : State) : State :=
  match r with
  | .ok =>
    if s.hidx.toNat < 20 then { s with hidx := s.hidx + 1 } else hostEnd .resOk { s with initok := true }
  | .fail => hostEnd .eBus { s with initok := false }

/-- CONTRAST_SET's continuation (44_init_contrast.md R251, R252): `CONTRAST` keeps the accepted value. -/
def contrastContinue (r : BusResult) (s : State) : State :=
  match r with
  | .ok => if s.hidx = 0 then { s with hidx := 1 } else hostEnd .resOk s
  | .fail => hostEnd .eBus s

/-- `HostContinue(r)` (R225).  A HOST write is outstanding only while a host sequence sends (log 20). -/
def hostContinue (r : BusResult) (s : State) : State :=
  match s.hs with
  | .cmd | .data => hostEnd (resultOf r) s
  | .init => initContinue r s
  | .contrast => contrastContinue r s
  | .idle | .teardown => s

/-- What the owner of the write does in the completion step (R212). -/
def ownerContinue : Owner → BusResult → State → State
  | .worker => workerContinue
  | .host => hostContinue

/-- `BusComplete` with the answer `r` (R212): enabled while a write is outstanding. -/
def busComplete (r : BusResult) (s : State) : State :=
  match s.bus with
  | .free => hold s
  | .busy o _ => ownerContinue o r { s with bus := .free, trace := s.trace ++ [.done o r] }

end Sys2Proof.Machine
end

