-- ==== Sys2Proof/Machine/BusRows.lean ====
section
/-! DEFINITION. The bus rows of the opcode table: the two write formats of 30_encoding.md R101 and the command writes
of R107 to R123.  A bus write is not an operation of its own: it is what a sender's issue step puts on the bus
(43_protocol_encoder.md R211, R216, R224).  So its meaning is that issue step, of the acting sender, for exactly these
bytes.  DESIGN CHOICE, log 10. -/

namespace Sys2Proof.Machine

/-- The acting sender issues the write `bytes`: enabled when `BUS = FREE` and it is that sender's next write; else the
sender holds (43_protocol_encoder.md R211, R213).  The TIMER may not issue bus writes (60_exceptions.md R283): it is
refused as an operation of an agent not listed for it is (`agentCheck`). -/
def issueWrite (bytes : List Byte) (s : State) : Answer :=
  match senderOf s.actor with
  | none => .next (refuse (if s.alive then .wrongIssuer else .released) s)
  | some o => .next (if nextWrite o s = some bytes then issueNext o s else hold s)

/-- `CMDW`: the command write `[0x00, c]` (R214). -/
def execCmdw (c : Byte) (s : State) : Answer := issueWrite (commandWrite c) s

/-- `DATAW`: the data chunk write `[0x40, b0, …, b15]` (R215). -/
def execDataw (bs : List Byte) (s : State) : Answer := issueWrite (Config.cbData :: bs) s

/-- `CB.SELECT_PAGE`: `0xB0 + p` (R120, R103), flush slot 0. -/
def execCbSelectPage (p : BitVec 3) (s : State) : Answer := issueWrite (commandWrite (pageSelect p)) s

/-- `CB.DISPLAY_OFF`: the command write of 0xAE (R107), script byte 0. -/
def execCbDisplayOff (s : State) : Answer := issueWrite (commandWrite 0xAE) s

/-- `CB.CLOCK_DIVIDE`: the command write of 0xD5 (R108), script byte 1. -/
def execCbClockDivide (s : State) : Answer := issueWrite (commandWrite 0xD5) s

/-- `CB.MULTIPLEX`: the command write of 0xA8 (R109), script byte 3. -/
def execCbMultiplex (s : State) : Answer := issueWrite (commandWrite 0xA8) s

/-- `CB.DISPLAY_OFFSET`: the command write of 0xD3 (R110), script byte 5. -/
def execCbDisplayOffset (s : State) : Answer := issueWrite (commandWrite 0xD3) s

/-- `CB.START_LINE`: the command write of 0x40 (R111), script byte 7. -/
def execCbStartLine (s : State) : Answer := issueWrite (commandWrite 0x40) s

/-- `CB.SEGMENT_REMAP`: the command write of 0xA1 (R112), script byte 8. -/
def execCbSegmentRemap (s : State) : Answer := issueWrite (commandWrite 0xA1) s

/-- `CB.COM_SCAN`: the command write of 0xC8 (R113), script byte 9. -/
def execCbComScan (s : State) : Answer := issueWrite (commandWrite 0xC8) s

/-- `CB.COM_PINS`: the command write of 0xDA (R114), script byte 10. -/
def execCbComPins (s : State) : Answer := issueWrite (commandWrite 0xDA) s

/-- `CB.INIT_CONTRAST`: the command write of 0x81 (R115), script byte 12. -/
def execCbInitContrast (s : State) : Answer := issueWrite (commandWrite 0x81) s

/-- `CB.ENTIRE_DISPLAY`: the command write of 0xA4 (R116), script byte 14. -/
def execCbEntireDisplay (s : State) : Answer := issueWrite (commandWrite 0xA4) s

/-- `CB.NORMAL_POLARITY`: the command write of 0xA6 (R117), script byte 15. -/
def execCbNormalPolarity (s : State) : Answer := issueWrite (commandWrite 0xA6) s

/-- `CB.CHARGE_PUMP`: the command write of 0x8D (R118), script byte 16. -/
def execCbChargePump (s : State) : Answer := issueWrite (commandWrite 0x8D) s

/-- `CB.ADDRESSING_MODE`: the command write of 0x20 (R119), script byte 18. -/
def execCbAddressingMode (s : State) : Answer := issueWrite (commandWrite 0x20) s

/-- `CB.DISPLAY_ON`: the command write of 0xAF (R119), script byte 20. -/
def execCbDisplayOn (s : State) : Answer := issueWrite (commandWrite 0xAF) s

/-- `CB.COLUMN_LOW`: the command write of 0x00 (R121), flush slot 1. -/
def execCbColumnLow (s : State) : Answer := issueWrite (commandWrite 0x00) s

/-- `CB.COLUMN_HIGH`: the command write of 0x10 (R122), flush slot 2. -/
def execCbColumnHigh (s : State) : Answer := issueWrite (commandWrite 0x10) s

/-- `CB.SET_CONTRAST`: the command write of 0x81 (R123), the first write of CONTRAST_SET. -/
def execCbSetContrast (s : State) : Answer := issueWrite (commandWrite 0x81) s

end Sys2Proof.Machine
end

