-- ==== Sys2Proof/Machine/InitContrast.lean ====
section
/-! DEFINITION. The initialization sequencer and the contrast register (44_init_contrast.md): the presenting steps of
INIT, CONTRAST_GET and CONTRAST_SET.  Their writes go out by the HOST's issue step (43_protocol_encoder.md R224). -/

namespace Sys2Proof.Machine

/-- `INIT`, the presenting step (R242).  `HARG` is "empty for INIT, whose bytes come from the script" (10_state.md R35);
that this step empties it is DEDUCED, log 15. -/
def execInit (s : State) : Answer :=
  hostDo s fun s =>
    if s.armed || s.jobq || s.jobrun then refuse .initWhileActive s
    else { s with initok := false, hs := .init, hidx := 0, harg := [] }

/-- `CONTRAST_GET` (R248). -/
def execContrastGet (s : State) : Answer := hostDo s fun s => finish .resOk s.contrast s

/-- `CONTRAST_SET v`: a rejected input (R249), or the accepted value's presenting step (R250). -/
def execContrastSet (v : BitVec 32) (nn : Bool) (s : State) : Answer :=
  hostDo s fun s =>
    match contrastInput v nn with
    | none => finish .eInval 0 s
    | some c => { s with contrast := c, hs := .contrast, hidx := 0, harg := [c] }

end Sys2Proof.Machine
end

