-- ==== Sys2Proof/Machine/Pixel.lean ====
section
/-! DEFINITION. The pixel-packing converter (42_pixel_packing.md) as the HOST presents it: PIXEL.SET, PIXEL.CLEAR,
PIXEL.TOGGLE and SYNC.  The WORKER's are inside JOB_START. -/

namespace Sys2Proof.Machine

/-- HOST access to the Device Bitmap: refused while a job is queued or running (R196). -/
def hostDb (s : State) (f : State → Memory → State) : Answer :=
  hostDo s fun s => if s.jobq || s.jobrun then refuse .dbBusy s else withDb s (f s)

/-- The state after the converter has left the raster `r`, with the HOST's result (R184 to R188). -/
def putRaster (s : State) (r : Raster) : State := finish .resOk 0 { s with db := some r.db, log := r.log }

/-- The three PIXEL operations of the HOST share their body (R183). -/
def hostPixel (mode : PixelMode) (x y : BitVec 16) (s : State) : Answer :=
  hostDb s fun s m => putRaster s (pixelOp mode (coord x) (coord y) ⟨m, s.log⟩)

/-- `PIXEL.SET x, y` (R184). -/
def execPixelSet (x y : BitVec 16) (s : State) : Answer := hostPixel .set x y s

/-- `PIXEL.CLEAR x, y` (R185). -/
def execPixelClear (x y : BitVec 16) (s : State) : Answer := hostPixel .clear x y s

/-- `PIXEL.TOGGLE x, y` (R186). -/
def execPixelToggle (x y : BitVec 16) (s : State) : Answer := hostPixel .toggle x y s

/-- `SYNC` of the HOST (R188); a surface that breaks its contract is refused (R190). -/
def execSync (s : State) : Answer :=
  hostDb s fun s m =>
    match syncBody s.surf ⟨m, s.log⟩ with
    | none => refuse .malformedSurface s
    | some r => putRaster s r

end Sys2Proof.Machine
end

