-- ==== Sys2Proof/Machine/Reserved.lean ====
section
/-! DEFINITION. The reserved words of 30_encoding.md R98: they "spell no operation" and are refused with the reason R98
gives, whoever presents them and in whatever state (R100: the decoder refuses before the issuer check). -/

namespace Sys2Proof.Machine

/-- `RESERVED_OPC_0x0` (R98). -/
def execReservedOpc0 (_rest : BitVec 60) (s : State) : Answer := .next (refuse .reservedOpcode s)

/-- `RESERVED_OPC_0xF` (R98). -/
def execReservedOpcF (_rest : BitVec 60) (s : State) : Answer := .next (refuse .reservedOpcode s)

/-- `RESERVED_PIXEL_MODE3` (R98). -/
def execReservedPixelMode3 (_rest : BitVec 58) (s : State) : Answer := .next (refuse .reservedMode s)

end Sys2Proof.Machine
end

