-- ==== Sys2Proof/Machine/Scheduler.lean ====
section
/-! DEFINITION. The periodic scheduler, the single-flight dispatcher and teardown (41_scheduler_dispatcher.md): TICK,
REQ_FLUSH, JOB_START, ARM, DISARM, TEARDOWN, and the release step. -/

namespace Sys2Proof.Machine

/-- `TICK` (R141): enabled when `ARMED = 1`; with `LINK = 0` it skips signalling; else REQ_FLUSH of the TIMER. -/
def execTick (s : State) : Answer :=
  agentDo .timer s fun s => if s.armed then (if s.link then admitJob s else s) else hold s

/-- `REQ_FLUSH` of the HOST (R143): `HVAL` says whether it was admitted.  The TIMER's is part of TICK (R141; log 13). -/
def execReqFlush (s : State) : Answer :=
  hostDo s fun s => finish .resOk (if s.gate then 0 else 1) (admitJob s)

/-- `JOB_START` (R146): enabled when a job is queued and none runs; refused as a whole when its sync is (R190). -/
def execJobStart (s : State) : Answer :=
  agentDo .worker s fun s =>
    if s.jobq && !s.jobrun then
      withDb s fun m =>
        match syncBody s.surf ⟨m, s.log⟩ with
        | none => refuse .malformedSurface s
        | some r =>
          { s with jobq := false, jobrun := true, gate := gateAtStart s, db := some r.db, log := r.log, fpage := 0, fslot := 0 }
    else hold s

/-- `ARM` (R150). -/
def execArm (s : State) : Answer :=
  hostDo s fun s =>
    if s.initok then finish .resOk 0 { s with armed := true } else refuse .notInitialized s

/-- `DISARM` (R151). -/
def execDisarm (s : State) : Answer := hostDo s fun s => finish .resOk 0 { s with armed := false }

/-- `TEARDOWN`, the presenting step (R152). -/
def execTeardown (s : State) : Answer := hostDo s fun s => { s with armed := false, hs := .teardown }

/-- `TeardownRelease` (R153): enabled when `HS = TEARDOWN`, no job is queued or running, and no write is outstanding. -/
def hostRelease (s : State) : State :=
  if s.hs = .teardown ∧ s.jobq = false ∧ s.jobrun = false ∧ s.bus = .free then
    finish .resOk 0 { s with alive := false, link := false, db := none, hs := .idle }
  else hold s

end Sys2Proof.Machine
end

