-- ==== Sys2Proof/Machine/Dispatch.lean ====
section
/-! DEFINITION. The dispatch: one arm per constructor of Instr, each a direct call of its meaning. -/

namespace Sys2Proof.Machine

def exec (i : Instr) (s : State) : Host.Outcome State Fault Refusal :=
  match i with
  | .tick => Sys2Proof.Machine.execTick s
  | .reqFlush => Sys2Proof.Machine.execReqFlush s
  | .pixelSet x y => Sys2Proof.Machine.execPixelSet x y s
  | .pixelClear x y => Sys2Proof.Machine.execPixelClear x y s
  | .pixelToggle x y => Sys2Proof.Machine.execPixelToggle x y s
  | .sync => Sys2Proof.Machine.execSync s
  | .flushStep => Sys2Proof.Machine.execFlushStep s
  | .cmd c => Sys2Proof.Machine.execCmd c s
  | .data p k => Sys2Proof.Machine.execData p k s
  | .init => Sys2Proof.Machine.execInit s
  | .contrastGet => Sys2Proof.Machine.execContrastGet s
  | .contrastSet v nn => Sys2Proof.Machine.execContrastSet v nn s
  | .arm => Sys2Proof.Machine.execArm s
  | .disarm => Sys2Proof.Machine.execDisarm s
  | .teardown => Sys2Proof.Machine.execTeardown s
  | .jobStart => Sys2Proof.Machine.execJobStart s
  | .reservedOpc0 rest => Sys2Proof.Machine.execReservedOpc0 rest s
  | .reservedOpcF rest => Sys2Proof.Machine.execReservedOpcF rest s
  | .reservedPixelMode3 rest => Sys2Proof.Machine.execReservedPixelMode3 rest s
  | .cmdw c => Sys2Proof.Machine.execCmdw c s
  | .dataw bs => Sys2Proof.Machine.execDataw bs s
  | .cbDisplayOff => Sys2Proof.Machine.execCbDisplayOff s
  | .cbClockDivide => Sys2Proof.Machine.execCbClockDivide s
  | .cbMultiplex => Sys2Proof.Machine.execCbMultiplex s
  | .cbDisplayOffset => Sys2Proof.Machine.execCbDisplayOffset s
  | .cbStartLine => Sys2Proof.Machine.execCbStartLine s
  | .cbSegmentRemap => Sys2Proof.Machine.execCbSegmentRemap s
  | .cbComScan => Sys2Proof.Machine.execCbComScan s
  | .cbComPins => Sys2Proof.Machine.execCbComPins s
  | .cbInitContrast => Sys2Proof.Machine.execCbInitContrast s
  | .cbEntireDisplay => Sys2Proof.Machine.execCbEntireDisplay s
  | .cbNormalPolarity => Sys2Proof.Machine.execCbNormalPolarity s
  | .cbChargePump => Sys2Proof.Machine.execCbChargePump s
  | .cbAddressingMode => Sys2Proof.Machine.execCbAddressingMode s
  | .cbDisplayOn => Sys2Proof.Machine.execCbDisplayOn s
  | .cbSelectPage p => Sys2Proof.Machine.execCbSelectPage p s
  | .cbColumnLow => Sys2Proof.Machine.execCbColumnLow s
  | .cbColumnHigh => Sys2Proof.Machine.execCbColumnHigh s
  | .cbSetContrast => Sys2Proof.Machine.execCbSetContrast s

end Sys2Proof.Machine
end

