-- ==== Sys2Proof/Machine/Agents.lean ====
section
/-! DEFINITION. One step of one agent (30_encoding.md R127): a presented word is decoded and executed, a bus row is
executed by the sender that takes it, and the steps without a word are the BUS agent's, the HOST's and the SURF
agent's. -/

namespace Sys2Proof.Machine

/-- The state in which the context `a` takes the step. -/
def State.actAs (s : State) (a : Issuer) : State := { s with actor := a }

/-- A presented operation word (30_encoding.md R100): decoded, then executed by its issuer; a word whose must-be-zero
bits are not all 0 is refused (R97). -/
def presentWord (a : Issuer) (w : OpWord) (s : State) : Answer :=
  match decodeWord w with
  | .ok i => exec i (s.actAs a)
  | .error _ => .next (refuse .reservedBits (s.actAs a))

/-- A bus row taken by a sender.  Bytes that are no write of the block are not emitted by it (30_encoding.md R102): the
sender holds. -/
def presentWrite (a : Issuer) (bytes : List Byte) (s : State) : Answer :=
  match decodeWrite bytes with
  | .ok i => exec i (s.actAs a)
  | .error _ => .next (hold (s.actAs a))

/-- `SURF.WRITE i, b` (30_encoding.md R127, 20_memory.md R63); an index the surface has no byte at changes nothing. -/
def surfWrite (i : Nat) (b : Byte) (s : State) : State := { s with surf := { s.surf with bytes := s.surf.bytes.set i b } }

/-- `SURF.DIMS w, h, s` (30_encoding.md R127, 20_memory.md R63). -/
def surfDims (ws hs stride : Int) (s : State) : State :=
  { s with surf := { s.surf with ws := ws, hs := hs, stride := stride } }

/-- Any change of the surface (20_memory.md R63; log 8). -/
def surfPut (S : Surface) (s : State) : State := { s with surf := S }

/-- The step of one agent. -/
def takeStep (a : AgentStep) (s : State) : Answer :=
  match a with
  | .op issuer w => presentWord issuer w s
  | .write issuer bytes => presentWrite issuer bytes s
  | .hostIssue => .next (hostIssue s)
  | .hostRelease => .next (hostRelease s)
  | .bus r => .next (busComplete r s)
  | .surfWrite i b => .next (surfWrite i b s)
  | .surfDims ws hs stride => .next (surfDims ws hs stride s)
  | .surfPut S => .next (surfPut S s)

/-- The next agent's step and the state without it: the first of `pending`, or, when none is pending, the next free
draw (10_state.md R46; log 1). -/
def nextStep (s : State) : AgentStep × State :=
  match s.pending with
  | a :: rest => (a, { s with pending := rest })
  | [] => (Config.agentStep s.draws, { s with draws := s.draws + 1 })

/-- The state in which the instruction of an opcode-table word is the very next step.  An operation word is presented
by the context R91 lists for it.  A bus write is put where the HOST's issue step fetches it, as CMD and DATA do
(43_protocol_encoder.md R222, R223).  Log 12. -/
def placeWord (s : State) (nbits w : Nat) : State :=
  if isBusWidth nbits then
    let bytes := tableBytes nbits w
    { s with
      pending := .write .host bytes :: s.pending
      hs := if bytes.length = 2 then .cmd else .data
      hidx := 0
      harg := bytes }
  else
    let word := BitVec.ofNat 64 w
    { s with pending := .op (listedIssuer word) word :: s.pending }

/-- `BOOT` (30_encoding.md R128): INIT, 21 pairs of issue and completion, ARM. -/
def boot : List AgentStep :=
  .op .host 0x8 :: (List.replicate Config.ntxInit [.hostIssue, .bus .ok]).flatten ++ [.op .host 0xB]

/-- `HOSTWRITES` (30_encoding.md R128), for a host operation of `n` writes. -/
def hostWrites (n : Nat) : List AgentStep := (List.replicate n [.hostIssue, .bus .ok]).flatten

/-- `FLUSH_ALL` (30_encoding.md R128), for a flush of which `n` writes remain. -/
def flushAll (n : Nat) : List AgentStep := (List.replicate n [.op .worker 0x5, .bus .ok]).flatten

end Sys2Proof.Machine
end

