-- ==== Sys2Proof/Machine/Step.lean ====
section
/-! DEFINITION. The step: the next agent's step, taken (00_scope.md R7, 20_memory.md R73), and the placing of a word
where the next step fetches it. -/

namespace Sys2Proof.Machine

/-- One step of the machine: the step of one agent, atomic (20_memory.md R73). -/
def step (s : State) : Host.Outcome State Fault Refusal := takeStep (nextStep s).1 (nextStep s).2

/-- `s` with the instruction of an opcode-table word as its very next step (`placeWord`).  Log 12. -/
def State.withFetchWord (s : State) (nbits w : Nat) : State := placeWord s nbits w

end Sys2Proof.Machine
end

