-- ==== Sys2Proof/Safety.lean ====
section
/-! DEFINITION. What a good state of the block is, in the terms claims use: the invariants the spec's rules keep
(10_state.md R26, R28, R35, R37, 30_encoding.md R101, 41_scheduler_dispatcher.md R154), when each context may act
(60_exceptions.md R283), and the closed forms of a conversion and of a flush (42_pixel_packing.md R193,
43_protocol_encoder.md R220). -/

namespace Sys2Proof.Machine

/-- The HOST may present an operation: it acts, `ALIVE = 1` and `HS = IDLE` (60_exceptions.md R283). -/
def HostReady (s : State) : Prop := s.actor = .host ∧ s.alive = true ∧ s.hs = .idle

/-- The HOST may reach the Device Bitmap, which holds `m` (42_pixel_packing.md R196). -/
def HostDbReady (s : State) (m : Memory) : Prop :=
  HostReady s ∧ s.jobq = false ∧ s.jobrun = false ∧ s.db = some m

/-- A job is running and the WORKER's position has a write (43_protocol_encoder.md R217, 10_state.md R28). -/
def FlushReady (s : State) (m : Memory) : Prop :=
  s.alive = true ∧ s.jobrun = true ∧ s.db = some m ∧ s.fslot.toNat ≤ 10 ∧ s.bus = .free

/-- The sender `o` acts, and its next write is `bytes` (43_protocol_encoder.md R211, R224). -/
def SenderReady (o : Owner) (bytes : List Byte) (s : State) : Prop :=
  senderOf s.actor = some o ∧ nextWrite o s = some bytes ∧ s.bus = .free

/-- The token tells the jobs, and a worker write is outstanding only while a job runs (10_state.md R26). -/
def TokenInv (s : State) : Prop :=
  (s.gateRelease = .onComplete → s.gate = (s.jobq || s.jobrun) ∧ (s.jobq && s.jobrun) = false) ∧
  (s.gateRelease = .onStart → s.gate = s.jobq) ∧
  (s.jobrun = false → ∀ bytes, s.bus ≠ .busy .worker bytes)

/-- `FSLOT` never holds 11 to 15 (10_state.md R28). -/
def SlotInv (s : State) : Prop := s.fslot.toNat ≤ 10

/-- The Device Bitmap's memory is canonical, so every index in it is in `DB[0..1023]` (20_memory.md R71). -/
def DbInv (s : State) : Prop := ∀ m, s.db = some m → Memory.wf m

/-- The bytes are a command write or a data chunk write, the two formats the block emits (30_encoding.md R101). -/
def Emitted (bytes : List Byte) : Prop :=
  (∃ c, bytes = [0x00, c]) ∨ (∃ bs, bytes = 0x40 :: bs ∧ bs.length = 16)

/-- Every issued write has one of the two formats, and so have the bytes CMD and DATA are sending (R101). -/
def FormatInv (s : State) : Prop :=
  (∀ o bytes, TxEvent.issue o bytes ∈ s.trace → Emitted bytes) ∧ (s.hs = .cmd ∨ s.hs = .data → Emitted s.harg)

/-- One event read off the trace: an issue needs a free bus, a completion needs the same owner's outstanding write. -/
def replayEvent (b : Option Bus) (e : TxEvent) : Option Bus :=
  match b, e with
  | some .free, .issue o bytes => some (.busy o bytes)
  | some (.busy o _), .done o' _ => if o = o' then some .free else none
  | _, _ => none

/-- The bus as the trace tells it, none where two writes overlap (10_state.md R37, R38). -/
def replay (trace : List TxEvent) : Option Bus := trace.foldl replayEvent (some .free)

/-- The trace is a sequence of whole writes, one at a time, and ends as the bus says (10_state.md R37, R38). -/
def TraceInv (s : State) : Prop := replay s.trace = some s.bus

/-- An outstanding write is the one its owner's position stands for: positions move only at completions
(10_state.md R41). -/
def OutstandingInv (s : State) : Prop := ∀ o bytes, s.bus = .busy o bytes → nextWrite o s = some bytes

/-- The host sequencer's position and bytes (10_state.md R35, 44_init_contrast.md R242, R250). -/
def HostSeqInv (s : State) : Prop :=
  match s.hs with
  | .idle | .cmd | .data => s.hidx = 0
  | .init => s.hidx.toNat ≤ 20 ∧ s.harg = [] ∧ s.armed = false ∧ s.jobq = false ∧ s.jobrun = false
  | .contrast => s.hidx.toNat ≤ 1 ∧ s.harg = [s.contrast]
  | .teardown => s.hidx = 0 ∧ s.armed = false

/-- `ARMED` only after a successful INIT (41_scheduler_dispatcher.md R150). -/
def ArmedInv (s : State) : Prop := s.armed = true → s.initok = true

/-- The resources are held exactly while `ALIVE = 1`, and a released block has no timer, no job and no write
(41_scheduler_dispatcher.md R153, R154, 10_state.md R22). -/
def ReleaseInv (s : State) : Prop :=
  if s.alive then s.link = true ∧ s.db.isSome = true
  else s.link = false ∧ s.db = none ∧ s.armed = false ∧ s.jobq = false ∧ s.jobrun = false ∧ s.bus = .free ∧ s.hs = .idle

/-- A good state: every invariant together. -/
structure Good (s : State) : Prop where
  token : TokenInv s
  slot : SlotInv s
  db : DbInv s
  format : FormatInv s
  trace : TraceInv s
  outstanding : OutstandingInv s
  hostSeq : HostSeqInv s
  armed : ArmedInv s
  release : ReleaseInv s

/-- The surface of this hardware: 128 × 64 and within its contract (00_scope.md R10). -/
def WellFormedSurface (S : Surface) : Prop := S.ws = 128 ∧ S.hs = 64 ∧ surfaceOk S = true

/-- Bit `r` of the closed form of byte `i` after SYNC of a well-formed surface: the pixel at column `i mod 128`, row
`8 * (i div 128) + r` (42_pixel_packing.md R193, 20_memory.md R61). -/
def packedByte (S : Surface) (i : Nat) : Byte :=
  BitVec.ofNat 8 (((List.range 8).map fun r => (surfBit S (i % 128) (8 * (i / 128) + r)).toNat * 2 ^ r).sum)

/-- The surface pixels in the order the loop takes them: rows ascending, columns ascending (42_pixel_packing.md R191). -/
def surfacePixels (S : Surface) : List (Nat × Nat) :=
  (List.range S.hs.toNat).flatMap fun y => (List.range S.ws.toNat).map fun x => (x, y)

/-- The warnings of one SYNC: one for each surface pixel outside the device, in loop order (42_pixel_packing.md R189). -/
def syncWarnings (S : Surface) : List LogEvent :=
  ((surfacePixels S).filter fun p => !inBounds p.1 p.2).map fun p => .warnOob p.1 p.2

/-- The `match`/`mask` pairs of the operation rows (30_encoding.md R97). -/
def operationRows : List (OpWord × OpWord) :=
  ([0x1, 0x2, 0x4, 0x5, 0x8, 0x9, 0xB, 0xC, 0xD, 0xE].map fun c => (c, 0xFFFFFFFFFFFFFFFF)) ++
  [(0x0000000000000003, 0xFFFF00000000FFFF), (0x0000000000000013, 0xFFFF00000000FFFF),
    (0x0000000000000023, 0xFFFF00000000FFFF), (0x0000000000000006, 0xFFFFFFFFFFFF00FF),
    (0x0000000000000007, 0xFFFFFFFFFFFFC0FF), (0x000000000000000A, 0xFFFF00000000FFBF)]

/-- The word spells an operation code and mode that are not reserved (30_encoding.md R98). -/
def KnownOpcode (w : OpWord) : Prop := w &&& 0xF ≠ 0x0 ∧ w &&& 0xF ≠ 0xF ∧ w &&& 0x3F ≠ 0x33

/-- The 88 writes of a complete flush of `m`, in order (43_protocol_encoder.md R220). -/
def flushWrites (m : Memory) : List (List Byte) :=
  (List.range 8).flatMap fun p =>
    [[0x00, BitVec.ofNat 8 (0xB0 + p)], [0x00, 0x00], [0x00, 0x10]] ++ (List.range 8).map fun k => dataWrite m p k

/-- The 21 writes of a complete initialization, in order (44_init_contrast.md R241). -/
def initWrites : List (List Byte) := script.map commandWrite

/-- The trace of writes that all completed with `OK`. -/
def okTrace (o : Owner) (writes : List (List Byte)) : List TxEvent :=
  writes.flatMap fun bytes => [.issue o bytes, .done o .ok]

/-- `k` steps of the machine from `s`. -/
def runSteps : Nat → State → Answer
  | 0, s => .next s
  | k + 1, s =>
    match step s with
    | .next t => runSteps k t
    | .fault r => .fault r
    | .refused r => .refused r

end Sys2Proof.Machine
end

