-- ==== Sys2Proof/Certificates/Slice0/Obligations.lean ====
section
/-! DEFINITION. The statements for the provers.  Each is a statement about the block's operations over all states, or
about every step; the docstring names the rules of spec/ it rests on. -/

open Sys2Proof Sys2Proof.Machine

/-! ## Encoding -/

/-- Operation words and bus writes written out from the encodings of spec/ (30_encoding.md R90 to R103) decode to the
instruction they stand for, at least one per family.  `[0x00, 0xB7]` is a `CMDW` row of the table too: that the decoder
reads it as `CB.SELECT_PAGE` 7 is the model's choice (log 11). -/
def Obligations.SpecWordsDecode : Prop :=
  decodeWord 0x0000000000000001 = .ok .tick ∧
  decodeWord 0x000000000000000E = .ok .jobStart ∧
  decodeWord 0x0000000A00090003 = .ok (.pixelSet 9 10) ∧
  decodeWord 0x0000003F007F0013 = .ok (.pixelClear 127 63) ∧
  decodeWord 0x00000000FFFF0003 = .ok (.pixelSet (-1) 0) ∧
  decodeWord 0x000000000000A606 = .ok (.cmd 0xA6) ∧
  decodeWord 0x0000000000000B07 = .ok (.data 3 1) ∧
  decodeWord 0x00000000012C000A = .ok (.contrastSet 300 false) ∧
  decodeWord 0x000000000000004A = .ok (.contrastSet 0 true) ∧
  decodeWord 0x0000000000000033 = .ok (.reservedPixelMode3 0) ∧
  decodeWord 0x000000000000008A = .error .reservedBits ∧
  decodeWrite [0x00, 0xB7] = .ok (.cbSelectPage 7) ∧
  decodeWrite [0x00, 0x12] = .ok (.cmdw 0x12) ∧
  decodeWrite (0x40 :: List.replicate 16 0x02) = .ok (.dataw (List.replicate 16 0x02))

/-- Decoding what the encoder gives returns the instruction, for every well-formed instruction and every value of its
operands (R90 to R97, R101, R103).  `canonical` is the identity but on the two rows whose words belong to another row
too (log 11): a `CMDW` of a byte that a `CB` row names, and `CB.SET_CONTRAST`. -/
def Obligations.EncodeThenDecode : Prop :=
  ∀ i : Instr, WellFormed i = true → decodeEncoded (encode i) = .ok (canonical i)

/-- No bit of an operation word is dropped: a word that decodes to an instruction is that instruction's encoding
(R90 to R98). -/
def Obligations.DecodedWordIsItsEncoding : Prop :=
  ∀ (w : OpWord) (i : Instr), decodeWord w = .ok i → encode i = .word w

/-- No byte of a write is dropped either, and the first byte of a write determines its length (R101, R102). -/
def Obligations.DecodedWriteIsItsEncoding : Prop :=
  ∀ (bs : List Byte) (i : Instr), decodeWrite bs = .ok i →
    WellFormed i = true ∧ encode i = .bytes bs ∧ bs.head?.bind writeLength = some bs.length

/-- R97: a word selects a row when `w & mask = match`, and a word with a known `OPC` whose must-be-zero bits are not all
0 is refused. -/
def Obligations.MasksSelectRows : Prop :=
  ∀ w : OpWord,
    (decodeWord w = .ok .tick ↔ w = 0x1) ∧
    (decodeWord w = .ok .reqFlush ↔ w = 0x2) ∧
    (decodeWord w = .ok .sync ↔ w = 0x4) ∧
    (decodeWord w = .ok .flushStep ↔ w = 0x5) ∧
    (decodeWord w = .ok .init ↔ w = 0x8) ∧
    (decodeWord w = .ok .contrastGet ↔ w = 0x9) ∧
    (decodeWord w = .ok .arm ↔ w = 0xB) ∧
    (decodeWord w = .ok .disarm ↔ w = 0xC) ∧
    (decodeWord w = .ok .teardown ↔ w = 0xD) ∧
    (decodeWord w = .ok .jobStart ↔ w = 0xE) ∧
    ((∃ x y, decodeWord w = .ok (.pixelSet x y)) ↔ w &&& 0xFFFF00000000FFFF = 0x03) ∧
    ((∃ x y, decodeWord w = .ok (.pixelClear x y)) ↔ w &&& 0xFFFF00000000FFFF = 0x13) ∧
    ((∃ x y, decodeWord w = .ok (.pixelToggle x y)) ↔ w &&& 0xFFFF00000000FFFF = 0x23) ∧
    ((∃ c, decodeWord w = .ok (.cmd c)) ↔ w &&& 0xFFFFFFFFFFFF00FF = 0x06) ∧
    ((∃ p k, decodeWord w = .ok (.data p k)) ↔ w &&& 0xFFFFFFFFFFFFC0FF = 0x07) ∧
    ((∃ v nn, decodeWord w = .ok (.contrastSet v nn)) ↔ w &&& 0xFFFF00000000FFBF = 0x0A) ∧
    (KnownOpcode w → (decodeWord w = .error .reservedBits ↔ ∀ row ∈ operationRows, w &&& row.2 ≠ row.1))

/-- Words that spell no operation (R98) decode to their reserved row, and that row is refused with its reason, whoever
presents it and in whatever state: nothing changes but `REFUSED` and the model's record of the reason (log 3).  That the
reason stays so after release and for every issuer is the model's order of the checks (log 4). -/
def Obligations.ReservedWordsAreRefused : Prop :=
  (∀ w : OpWord, field w 0 4 = 0x0 → decodeWord w = .ok (.reservedOpc0 (field w 4 60))) ∧
  (∀ w : OpWord, field w 0 4 = 0xF → decodeWord w = .ok (.reservedOpcF (field w 4 60))) ∧
  (∀ w : OpWord, field w 0 4 = 0x3 → field w 4 2 = 3 → decodeWord w = .ok (.reservedPixelMode3 (field w 6 58))) ∧
  (∀ rest s, exec (.reservedOpc0 rest) s = .next { s with refused := true, reason := some .reservedOpcode }) ∧
  (∀ rest s, exec (.reservedOpcF rest) s = .next { s with refused := true, reason := some .reservedOpcode }) ∧
  (∀ rest s, exec (.reservedPixelMode3 rest) s = .next { s with refused := true, reason := some .reservedMode })

/-! ## The step -/

/-- The step takes the first pending agent's step; a presented word that decodes to `i` is `exec i`, issued by its
agent; a word that decodes to nothing is refused (R97), before every other check (log 4).  That a bus write named by its bytes is a step too, which runs
`exec` of its row, is the model's reading and no step of R127 (log 10).  With nothing pending the step is the next free
draw (log 1). -/
def Obligations.StepRunsDecodedInstruction : Prop :=
  (∀ s a w rest i, s.pending = .op a w :: rest → decodeWord w = .ok i →
    step s = exec i { s with pending := rest, actor := a }) ∧
  (∀ s a w rest e, s.pending = .op a w :: rest → decodeWord w = .error e →
    step s = .next { s with pending := rest, actor := a, refused := true, reason := some .reservedBits }) ∧
  (∀ s a bytes rest i, s.pending = .write a bytes :: rest → decodeWrite bytes = .ok i →
    step s = exec i { s with pending := rest, actor := a }) ∧
  (∀ s a rest, s.pending = a :: rest → step s = takeStep a { s with pending := rest }) ∧
  (∀ s, s.pending = [] → step s = takeStep (Config.agentStep s.draws) { s with draws := s.draws + 1 })

/-- A word placed by `withFetchWord` is the very next step's instruction, presented by the context R91 lists for its
code, or, for a bus row, due at the HOST's sequencer (log 12). -/
def Obligations.PlacedWordRunsNext : Prop :=
  (∀ (s : State) nbits w i, isBusWidth nbits = false → decodeTableWord nbits w = some i →
    step (s.withFetchWord nbits w) = exec i { s with actor := listedIssuer (BitVec.ofNat 64 w) }) ∧
  (∀ (s : State) nbits w i, isBusWidth nbits = true → decodeTableWord nbits w = some i →
    ∃ t : State, step (s.withFetchWord nbits w) = exec i t ∧ t.actor = .host ∧
      nextWrite .host t = some (tableBytes nbits w) ∧ t.bus = s.bus ∧ t.pending = s.pending)

/-- R280: "The block has no fault state: none of the source's conditions stops the block."  Every step from every state
answers a next state. -/
def Obligations.NothingStopsTheBlock : Prop := ∀ s : State, ∃ t, step s = .next t

/-- A step that is not enabled is not taken and changes nothing (60_exceptions.md R280; log 5): TICK while disarmed
(R141), JOB_START without a queued job or during one (R146), FLUSH_STEP without a job or with the bus busy (R217),
H.ISSUE with the bus busy or with no host sequence sending (R224), H.RELEASE before the drain is over (R153), a
completion with no write outstanding (R212), a bus row that is not the acting sender's next write or finds the bus
busy (log 10). -/
def Obligations.StepsNotEnabledHold : Prop :=
  (∀ s : State, s.actor = .timer → s.alive = true → s.armed = false → exec .tick s = .next s) ∧
  (∀ s : State, s.actor = .worker → s.alive = true → s.jobq = false ∨ s.jobrun = true → exec .jobStart s = .next s) ∧
  (∀ s : State, s.actor = .worker → s.alive = true → s.jobrun = false ∨ s.bus ≠ .free → exec .flushStep s = .next s) ∧
  (∀ s : State, s.hs = .idle ∨ s.hs = .teardown ∨ s.bus ≠ .free → takeStep .hostIssue s = .next s) ∧
  (∀ s : State, s.hs ≠ .teardown ∨ s.jobq = true ∨ s.jobrun = true ∨ s.bus ≠ .free →
    takeStep .hostRelease s = .next s) ∧
  (∀ (s : State) (r : BusResult), s.bus = .free → takeStep (.bus r) s = .next s) ∧
  (∀ (s : State) (i : Instr) (bytes : List Byte) (o : Owner), encode i = .bytes bytes → senderOf s.actor = some o →
    nextWrite o s ≠ some bytes ∨ s.bus ≠ .free → exec i s = .next s)

/-! ## Reset -/

/-- The values of R300 and of R20's reset column, and `DB` unspecified per byte: each byte reads as its free draw. -/
def Obligations.ResetValues : Prop :=
  let s := State.reset
  (s.gate = false ∧ s.jobq = false ∧ s.jobrun = false ∧ s.fpage = 0 ∧ s.fslot = 0 ∧ s.fres = .none ∧
    s.armed = false ∧ s.link = true ∧ s.alive = true ∧ s.initok = false ∧ s.contrast = 127 ∧ s.hs = .idle ∧
    s.hidx = 0 ∧ s.harg = [] ∧ s.hres = .none ∧ s.hval = 0 ∧ s.bus = .free ∧ s.trace = [] ∧ s.log = [] ∧
    s.refused = false) ∧
  ∃ m, s.db = some m ∧ ∀ i, Memory.read m i = Config.dbAtReset i

/-- Every invariant holds at reset. -/
def Obligations.ResetIsGood : Prop := Good State.reset

/-! ## The pixel-packing converter -/

/-- R183 to R186: in bounds, the HOST's PIXEL.SET, PIXEL.CLEAR and PIXEL.TOGGLE read, change and write the one byte at
`x + (y div 8) * 128` under the mask `1 << (y mod 8)`, and report RES_OK. -/
def Obligations.PixelInBoundsWritesItsByte : Prop :=
  ∀ (s : State) (m : Memory) (x y : BitVec 16), HostDbReady s m → inBounds x.toInt y.toInt = true →
    let i := x.toNat + y.toNat / 8 * 128
    let mask : Byte := 1 <<< (y.toNat % 8)
    exec (.pixelSet x y) s =
      .next { s with db := some (Memory.write m i (Memory.read m i ||| mask)), hres := .resOk, hval := 0 } ∧
    exec (.pixelClear x y) s =
      .next { s with db := some (Memory.write m i (Memory.read m i &&& ~~~mask)), hres := .resOk, hval := 0 } ∧
    exec (.pixelToggle x y) s =
      .next { s with db := some (Memory.write m i (Memory.read m i ^^^ mask)), hres := .resOk, hval := 0 }

/-- R187: out of bounds, a PIXEL operation appends `WARN_OOB(x, y)` to `LOG` and writes no pixel; the HOST's form
reports RES_OK (R184 to R186). -/
def Obligations.PixelOutOfBoundsWarns : Prop :=
  ∀ (s : State) (m : Memory) (x y : BitVec 16) (i : Instr), HostDbReady s m → inBounds x.toInt y.toInt = false →
    i = .pixelSet x y ∨ i = .pixelClear x y ∨ i = .pixelToggle x y →
    exec i s = .next { s with log := s.log ++ [.warnOob x.toInt y.toInt], hres := .resOk, hval := 0 }

/-- R183: "Exactly one bit of one byte can change."  Every pixel of the device reads as before but the operation's own,
which a SET sets, a CLEAR clears and a TOGGLE inverts; every byte but the operation's own reads as before. -/
def Obligations.PixelChangesOneBit : Prop :=
  ∀ (s t : State) (m : Memory) (x y : BitVec 16) (i : Instr) (new : Bool → Bool), HostDbReady s m →
    (i = .pixelSet x y ∧ new = fun _ => true) ∨ (i = .pixelClear x y ∧ new = fun _ => false) ∨
      (i = .pixelToggle x y ∧ new = fun b => !b) →
    exec i s = .next t →
    ∃ m', t.db = some m' ∧
      (∀ x' y' : Nat, x' < 128 → y' < 64 →
        readPixel m' x' y' =
          if (x' : Int) = x.toInt ∧ (y' : Int) = y.toInt then new (readPixel m x' y') else readPixel m x' y') ∧
      (∀ a, inBounds x.toInt y.toInt = false ∨ a ≠ dbIndex x.toInt.toNat y.toInt.toNat →
        Memory.read m' a = Memory.read m a)

/-- R192, the PIXEL laws, on every byte of `DB`: SET and CLEAR are idempotent and overwrite a TOGGLE, TOGGLE twice is
the identity, operations on different pixels commute, and out of bounds every mode leaves `DB` unchanged. -/
def Obligations.PixelLaws : Prop :=
  ∀ (r : Raster) (x y : Int), 
    (inBounds x y = true →
      (∀ a, Memory.read (pixelOp .set x y (pixelOp .set x y r)).db a = Memory.read (pixelOp .set x y r).db a) ∧
      (∀ a, Memory.read (pixelOp .clear x y (pixelOp .clear x y r)).db a = Memory.read (pixelOp .clear x y r).db a) ∧
      (∀ a, Memory.read (pixelOp .toggle x y (pixelOp .toggle x y r)).db a = Memory.read r.db a) ∧
      (∀ a, Memory.read (pixelOp .set x y (pixelOp .toggle x y r)).db a = Memory.read (pixelOp .set x y r).db a) ∧
      (∀ a, Memory.read (pixelOp .clear x y (pixelOp .toggle x y r)).db a = Memory.read (pixelOp .clear x y r).db a) ∧
      (∀ (mode mode' : PixelMode) (x' y' : Int) (a : Nat), inBounds x' y' = true → (x, y) ≠ (x', y') →
        Memory.read (pixelOp mode x y (pixelOp mode' x' y' r)).db a =
          Memory.read (pixelOp mode' x' y' (pixelOp mode x y r)).db a) ∧
      (∀ (mode : PixelMode) (x' y' : Nat), x' < 128 → y' < 64 → ((x' : Int), (y' : Int)) ≠ (x, y) →
        readPixel (pixelOp mode x y r).db x' y' = readPixel r.db x' y')) ∧
    (inBounds x y = false → ∀ mode : PixelMode, (pixelOp mode x y r).db = r.db)

/-- R193, R195: after SYNC of a well-formed surface, every byte of `DB` is the closed form of the surface's bits, nothing
is logged, and RES_OK is reported; the closed form depends on the surface's pixels alone. -/
def Obligations.SyncPacksTheSurface : Prop :=
  ∀ (s : State) (m : Memory), HostDbReady s m → WellFormedSurface s.surf →
    ∃ m', exec .sync s = .next { s with db := some m', hres := .resOk, hval := 0 } ∧
      (∀ i, i < 1024 → Memory.read m' i = packedByte s.surf i) ∧
      ∀ S : Surface, (∀ x y, x < 128 → y < 64 → surfBit S x y = surfBit s.surf x y) →
        ∀ i, i < 1024 → packedByte S i = Memory.read m' i

/-- R194, the round-trip law: after SYNC of a well-formed surface, the inverse formula reads back the surface's bit at
every in-bounds pixel. -/
def Obligations.SyncRoundTrip : Prop :=
  ∀ (s t : State) (m : Memory), HostDbReady s m → WellFormedSurface s.surf → exec .sync s = .next t →
    ∃ m', t.db = some m' ∧ ∀ x y, x < 128 → y < 64 →
      (Memory.read m' (x + y / 8 * 128)).getLsbD (y % 8) = surfBit s.surf x y

/-- R189, R188, R191: a surface of any dimensions within its contract.  Its pixels inside the device are written, each
one outside gives one warning in loop order and no write, and device pixels outside the surface keep their values. -/
def Obligations.SyncOfOtherDimensions : Prop :=
  ∀ (s : State) (m : Memory), HostDbReady s m → surfaceOk s.surf = true →
    ∃ m', exec .sync s =
        .next { s with db := some m', log := s.log ++ syncWarnings s.surf, hres := .resOk, hval := 0 } ∧
      ∀ x y : Nat, x < 128 → y < 64 →
        readPixel m' x y = if (x : Int) < s.surf.ws ∧ (y : Int) < s.surf.hs then surfBit s.surf x y else readPixel m x y

/-- R190: a surface that breaks its contract is refused, in the HOST's SYNC and in JOB_START as a whole: nothing changes
but `REFUSED` and the model's record of the reason (log 3). -/
def Obligations.MalformedSurfaceIsRefused : Prop :=
  (∀ (s : State) (m : Memory), HostDbReady s m → surfaceOk s.surf = false →
    exec .sync s = .next { s with refused := true, reason := some .malformedSurface }) ∧
  (∀ (s : State) (m : Memory), s.actor = .worker → s.alive = true → s.jobq = true → s.jobrun = false →
    s.db = some m → surfaceOk s.surf = false →
    exec .jobStart s = .next { s with refused := true, reason := some .malformedSurface })

/-! ## The scheduler and the dispatcher -/

/-- R141: an enabled TICK signals nothing when `LINK = 0`; else its request is admitted when `GATE = 0` and dropped,
changing nothing, when `GATE = 1`. -/
def Obligations.TickRequestsAFlush : Prop :=
  ∀ s : State, s.actor = .timer → s.armed = true → s.alive = true →
    exec .tick s =
      .next (if s.link = true ∧ s.gate = false then { s with gate := true, jobq := true } else s)

/-- R143: the HOST's REQ_FLUSH tests and sets the token in one step; it always ends RES_OK, with `HVAL` 1 when admitted
and 0 when dropped. -/
def Obligations.ReqFlushTestsAndSets : Prop :=
  ∀ s : State, HostReady s →
    (s.gate = false → exec .reqFlush s = .next { s with gate := true, jobq := true, hres := .resOk, hval := 1 }) ∧
    (s.gate = true → exec .reqFlush s = .next { s with hres := .resOk, hval := 0 })

/-- R144, R149: any number of requests in a row admit at most one job, whatever `GATE_RELEASE` is; only the first can
answer 1. -/
def Obligations.ManyRequestsAdmitOneJob : Prop :=
  ∀ (n : Nat) (s : State) (rest : List AgentStep), HostReady s →
    s.pending = List.replicate (n + 1) (.op .host 0x2) ++ rest →
    runSteps (n + 1) s =
      .next { s with
        pending := rest, gate := true, jobq := s.jobq || !s.gate, hres := .resOk,
        hval := if n = 0 ∧ s.gate = false then 1 else 0 }

/-- R146: JOB_START takes the queued job, releases the token under `ON_START` alone, performs the sync, and puts the
flush at page 0, slot 0. -/
def Obligations.JobStartSyncsAndStarts : Prop :=
  ∀ (s : State) (m : Memory), s.actor = .worker → s.jobq = true → s.jobrun = false → s.alive = true →
    s.db = some m → surfaceOk s.surf = true →
    exec .jobStart s =
      .next { s with
        jobq := false, jobrun := true
        gate := if s.gateRelease = .onStart then false else s.gate
        db := some (syncLoop s.surf ⟨m, s.log⟩).db
        log := s.log ++ syncWarnings s.surf
        fpage := 0, fslot := 0 }

/-- R150, R151: ARM after a successful INIT arms, DISARM disarms, and both report RES_OK. -/
def Obligations.ArmAndDisarm : Prop :=
  (∀ s : State, HostReady s → s.initok = true →
    exec .arm s = .next { s with armed := true, hres := .resOk, hval := 0 }) ∧
  (∀ s : State, HostReady s → exec .disarm s = .next { s with armed := false, hres := .resOk, hval := 0 })

/-- R152, R153: TEARDOWN disarms and waits; once no job is queued or running and no write is outstanding, the release
step releases the Device Bitmap and the Transport Handle and reports RES_OK. -/
def Obligations.TeardownThenRelease : Prop :=
  (∀ s : State, HostReady s → exec .teardown s = .next { s with armed := false, hs := .teardown }) ∧
  (∀ s : State, s.hs = .teardown → s.jobq = false → s.jobrun = false → s.bus = .free →
    takeStep .hostRelease s =
      .next { s with alive := false, link := false, db := none, hs := .idle, hres := .resOk, hval := 0 })

/-- The refusals that order the boot and the use of the bitmap (R150, R242, R196; log 3 for the reason field): ARM
before a successful INIT, INIT while armed or with a job, and HOST PIXEL or SYNC with a job.  That SYNC of a malformed
surface with a job is refused with DB_BUSY, and not with MALFORMED_SURFACE, is the model's order of the checks (log 4). -/
def Obligations.OrderingRefusals : Prop :=
  (∀ s : State, HostReady s → s.initok = false →
    exec .arm s = .next { s with refused := true, reason := some .notInitialized }) ∧
  (∀ s : State, HostReady s → s.armed = true ∨ s.jobq = true ∨ s.jobrun = true →
    exec .init s = .next { s with refused := true, reason := some .initWhileActive }) ∧
  (∀ (s : State) (i : Instr) (x y : BitVec 16), HostReady s → s.jobq = true ∨ s.jobrun = true →
    i = .sync ∨ i = .pixelSet x y ∨ i = .pixelClear x y ∨ i = .pixelToggle x y →
    exec i s = .next { s with refused := true, reason := some .dbBusy })

/-- R99, R154, R283 (log 3 for the reason field): while `ALIVE = 1` an operation is refused to a context that R91 does
not list for it, and to the HOST while a host operation is in progress; after release every operation is refused,
whichever agent presents it.  The TIMER may not issue bus writes: that a bus row is refused to it in the same way is the
model's reading (log 10).  That after release it is RELEASED and no other reason is R154's own; where otherwise two rows
of R281 apply at once (WRONG_ISSUER or HOST_BUSY, beside HOST_BUSY, DB_BUSY, NOT_INITIALIZED or INIT_WHILE_ACTIVE), the
reason given is that of the model's order of the checks (log 4). -/
def Obligations.ContextRefusals : Prop :=
  ∀ (s : State) (i : Instr) (c : Byte) (p k : BitVec 3) (v : BitVec 32) (nn : Bool) (x y : BitVec 16),
    let refused (r : RefuseReason) := exec i s = .next { s with refused := true, reason := some r }
    let hostOnly : List Instr :=
      [.cmd c, .data p k, .init, .contrastGet, .contrastSet v nn, .arm, .disarm, .teardown]
    let converter : List Instr := [.sync, .pixelSet x y, .pixelClear x y, .pixelToggle x y]
    (i ∈ hostOnly → s.alive = true → s.actor ≠ .host → refused .wrongIssuer) ∧
    (i ∈ converter → s.alive = true → s.actor = .timer → refused .wrongIssuer) ∧
    (i = .reqFlush → s.alive = true → s.actor = .worker → refused .wrongIssuer) ∧
    (i = .tick → s.alive = true → s.actor ≠ .timer → refused .wrongIssuer) ∧
    (i = .flushStep ∨ i = .jobStart → s.alive = true → s.actor ≠ .worker → refused .wrongIssuer) ∧
    (i ∈ [.tick, .flushStep, .jobStart, .reqFlush] ++ hostOnly ++ converter → s.alive = false → refused .released) ∧
    (i ∈ .reqFlush :: hostOnly ++ converter → s.actor = .host → s.alive = true → s.hs ≠ .idle → refused .hostBusy) ∧
    (∀ bytes, encode i = .bytes bytes → s.actor = .timer →
      (s.alive = true → refused .wrongIssuer) ∧ (s.alive = false → refused .released))

/-! ## The protocol encoder -/

/-- R216, R214, R215: the write of each slot of a page. -/
def Obligations.SlotBytesFraming : Prop :=
  ∀ (m : Memory) (p : BitVec 3),
    slotBytes m p 0 = some [0x00, BitVec.ofNat 8 (0xB0 + p.toNat)] ∧
    slotBytes m p 1 = some [0x00, 0x00] ∧
    slotBytes m p 2 = some [0x00, 0x10] ∧
    ∀ k : Nat, k < 8 → slotBytes m p (BitVec.ofNat 4 (k + 3)) =
      some (0x40 :: (List.range 16).map fun j => Memory.read m (p.toNat * 128 + 16 * k + j))

/-- R217: an enabled FLUSH_STEP issues the write of the flush's position, and writes `BUS` and `TRACE` alone. -/
def Obligations.FlushStepIssuesItsSlot : Prop :=
  ∀ (s : State) (m : Memory), s.actor = .worker → FlushReady s m →
    ∃ bytes, slotBytes m s.fpage s.fslot = some bytes ∧
      exec .flushStep s =
        .next { s with bus := .busy .worker bytes, trace := s.trace ++ [.issue .worker bytes] }

/-- A worker write that succeeds moves to the next slot, or to slot 0 of the next page, or ends the job (R218); one that
fails logs its position, which stays, and ends the job with E_BUS (R219); the job's end is R147, in the same step as the
completion, which frees the bus and is recorded (R212). -/
def Obligations.WorkerWriteContinues : Prop :=
  ∀ (s : State) (bytes : List Byte), s.bus = .busy .worker bytes →
    takeStep (.bus .ok) s =
      .next (
        let t : State := { s with bus := .free, trace := s.trace ++ [.done .worker .ok] }
        if s.fslot.toNat < 10 then { t with fslot := s.fslot + 1 }
        else if s.fpage.toNat < 7 then { t with fpage := s.fpage + 1, fslot := 0 }
        else { t with
          jobrun := false, fres := .resOk
          gate := if s.gateRelease = .onComplete then false else s.gate }) ∧
    takeStep (.bus .fail) s =
      .next { s with
        bus := .free, trace := s.trace ++ [.done .worker .fail], log := s.log ++ [.flushErr s.fpage s.fslot]
        jobrun := false, fres := .eBus
        gate := if s.gateRelease = .onComplete then false else s.gate }

/-- R220: a flush that completes issues exactly its 88 writes, 1136 bytes, in order, from any state in which it
starts. -/
def Obligations.FlushIssues88Writes : Prop :=
  ∀ (s : State) (m : Memory) (rest : List AgentStep), FlushReady s m → s.fpage = 0 → s.fslot = 0 →
    s.pending = flushAll 88 ++ rest →
    (flushWrites m).length = 88 ∧ ((flushWrites m).map List.length).sum = 1136 ∧
    runSteps 176 s =
      .next { s with
        pending := rest, actor := .worker, trace := s.trace ++ okTrace .worker (flushWrites m)
        fpage := 7, fslot := 10, jobrun := false, fres := .resOk
        gate := if s.gateRelease = .onComplete then false else s.gate }

/-- R220, R219: a flush whose write at page `p`, slot `s` fails issues exactly `11p + s + 1` writes, the last of them the
failed one, and stays at its position. -/
def Obligations.FailedFlushStopsAtItsWrite : Prop :=
  ∀ (s : State) (m : Memory) (rest : List AgentStep) (n : Nat) (bytes : List Byte), FlushReady s m → s.fpage = 0 →
    s.fslot = 0 → (flushWrites m)[n]? = some bytes →
    s.pending = flushAll n ++ .op .worker 0x5 :: .bus .fail :: rest →
    runSteps (2 * n + 2) s =
      .next { s with
        pending := rest, actor := .worker
        trace := s.trace ++ okTrace .worker ((flushWrites m).take n) ++ [.issue .worker bytes, .done .worker .fail]
        log := s.log ++ [.flushErr (BitVec.ofNat 3 (n / 11)) (BitVec.ofNat 4 (n % 11))]
        fpage := BitVec.ofNat 3 (n / 11), fslot := BitVec.ofNat 4 (n % 11), jobrun := false, fres := .eBus
        gate := if s.gateRelease = .onComplete then false else s.gate }

/-- R222, R223: the presenting steps of CMD and DATA take the write's bytes, DATA reading `DB` now. -/
def Obligations.CmdAndDataTakeTheirBytes : Prop :=
  (∀ (s : State) (c : Byte), HostReady s →
    exec (.cmd c) s = .next { s with hs := .cmd, hidx := 0, harg := [0x00, c] }) ∧
  (∀ (s : State) (m : Memory) (p k : BitVec 3), HostReady s → s.db = some m →
    exec (.data p k) s =
      .next { s with
        hs := .data, hidx := 0
        harg := 0x40 :: (List.range 16).map fun j => Memory.read m (p.toNat * 128 + 16 * k.toNat + j) })

/-- R224: the HOST's issue step sends, on a free bus, the bytes of CMD or DATA, the script's byte, or the contrast
pair's byte. -/
def Obligations.HostIssueSendsItsWrite : Prop :=
  ∀ (s : State), s.bus = .free →
    (s.hs = .cmd ∨ s.hs = .data →
      takeStep .hostIssue s = .next { s with bus := .busy .host s.harg, trace := s.trace ++ [.issue .host s.harg] }) ∧
    (∀ b, s.hs = .init → script[s.hidx.toNat]? = some b →
      takeStep .hostIssue s =
        .next { s with bus := .busy .host [0x00, b], trace := s.trace ++ [.issue .host [0x00, b]] }) ∧
    (s.hs = .contrast → s.hidx = 0 →
      takeStep .hostIssue s =
        .next { s with bus := .busy .host [0x00, 0x81], trace := s.trace ++ [.issue .host [0x00, 0x81]] }) ∧
    (∀ b bs, s.hs = .contrast → s.hidx ≠ 0 → s.harg = b :: bs →
      takeStep .hostIssue s =
        .next { s with bus := .busy .host [0x00, b], trace := s.trace ++ [.issue .host [0x00, b]] })

/-- R225, R226: a CMD or DATA write ends its operation with RES_OK or E_BUS, and is not repeated. -/
def Obligations.SingleHostWriteEnds : Prop :=
  ∀ (s : State) (r : BusResult) (bytes : List Byte), s.bus = .busy .host bytes → s.hs = .cmd ∨ s.hs = .data →
    takeStep (.bus r) s =
      .next { s with
        bus := .free, trace := s.trace ++ [.done .host r], hs := .idle, hidx := 0
        hres := if r = .ok then .resOk else .eBus
        hval := 0 }

/-! ## The bus rows -/

/-- R101, R107 to R123: a bus write of the table is issued by the acting sender whose next write it is, on a free bus:
the command write of every row of format CMDW, and the data chunk write.  The issue step is the model's reading of a bus
row (log 10). -/
def Obligations.BusRowsIssueTheirWrite : Prop :=
  (∀ (s : State) (o : Owner) (c : Byte) (i : Instr), SenderReady o [0x00, c] s →
    (i = .cmdw c ∨ (∃ p : BitVec 3, c = BitVec.ofNat 8 (0xB0 + p.toNat) ∧ i = .cbSelectPage p) ∨
      (c, i) ∈ [((0xAE : Byte), Instr.cbDisplayOff), (0xD5, .cbClockDivide), (0xA8, .cbMultiplex),
        (0xD3, .cbDisplayOffset), (0x40, .cbStartLine), (0xA1, .cbSegmentRemap), (0xC8, .cbComScan),
        (0xDA, .cbComPins), (0x81, .cbInitContrast), (0xA4, .cbEntireDisplay), (0xA6, .cbNormalPolarity),
        (0x8D, .cbChargePump), (0x20, .cbAddressingMode), (0xAF, .cbDisplayOn), (0x00, .cbColumnLow),
        (0x10, .cbColumnHigh), (0x81, .cbSetContrast)]) →
    exec i s = .next { s with bus := .busy o [0x00, c], trace := s.trace ++ [.issue o [0x00, c]] }) ∧
  (∀ (s : State) (o : Owner) (bs : List Byte), SenderReady o (0x40 :: bs) s →
    exec (.dataw bs) s = .next { s with bus := .busy o (0x40 :: bs), trace := s.trace ++ [.issue o (0x40 :: bs)] })

/-- R107 to R119: each named command byte of the script is the write of INIT at its index, and a parameter is the write
after its command's success. -/
def Obligations.ScriptRowsAreInitWrites : Prop :=
  ∀ (s : State) (idx : Nat) (c : Byte) (i : Instr) (param : Option Byte),
    s.actor = .host → s.hs = .init → s.bus = .free → s.hidx = BitVec.ofNat 5 idx →
    (idx, c, i, param) ∈ [(0, (0xAE : Byte), Instr.cbDisplayOff, none), (1, 0xD5, .cbClockDivide, some 0x80),
      (3, 0xA8, .cbMultiplex, some 0x3F), (5, 0xD3, .cbDisplayOffset, some 0x00), (7, 0x40, .cbStartLine, none),
      (8, 0xA1, .cbSegmentRemap, none), (9, 0xC8, .cbComScan, none), (10, 0xDA, .cbComPins, some 0x12),
      (12, 0x81, .cbInitContrast, some 0x7F), (14, 0xA4, .cbEntireDisplay, none),
      (15, 0xA6, .cbNormalPolarity, none), (16, 0x8D, .cbChargePump, some 0x14),
      (18, 0x20, .cbAddressingMode, some 0x02), (20, 0xAF, .cbDisplayOn, none)] →
    ∃ t : State, exec i s = .next t ∧ t = { s with
        bus := .busy .host [0x00, c], trace := s.trace ++ [.issue .host [0x00, c]] } ∧
      ∀ b, param = some b → ∃ u, takeStep (.bus .ok) t = .next u ∧ nextWrite .host u = some [0x00, b]

/-- R120 to R123: select-page, set-column-low and set-column-high are the WORKER's writes at slots 0, 1 and 2, and
CONTRAST_SET's first write is 0x81, followed after its success by the accepted value. -/
def Obligations.FlushAndContrastRowsIssue : Prop :=
  (∀ (s : State) (m : Memory), s.actor = .worker → FlushReady s m →
    (s.fslot = 0 → ∃ c : Byte, c = BitVec.ofNat 8 (0xB0 + s.fpage.toNat) ∧ exec (.cbSelectPage s.fpage) s =
      .next { s with bus := .busy .worker [0x00, c], trace := s.trace ++ [.issue .worker [0x00, c]] }) ∧
    (s.fslot = 1 → exec .cbColumnLow s =
      .next { s with bus := .busy .worker [0x00, 0x00], trace := s.trace ++ [.issue .worker [0x00, 0x00]] }) ∧
    (s.fslot = 2 → exec .cbColumnHigh s =
      .next { s with bus := .busy .worker [0x00, 0x10], trace := s.trace ++ [.issue .worker [0x00, 0x10]] })) ∧
  (∀ (s : State) (v : Byte), s.actor = .host → s.hs = .contrast → s.hidx = 0 → s.harg = [v] → s.bus = .free →
    ∃ t u : State, exec .cbSetContrast s = .next t ∧
      t = { s with bus := .busy .host [0x00, 0x81], trace := s.trace ++ [.issue .host [0x00, 0x81]] } ∧
      takeStep (.bus .ok) t = .next u ∧ nextWrite .host u = some [0x00, v])

/-! ## Initialization and contrast -/

/-- R242: the presenting step of INIT.  That it empties `HARG` is read from 10_state.md R35 ("empty for INIT"): R242's
pseudocode does not write it (log 15). -/
def Obligations.InitStartsItsScript : Prop :=
  ∀ s : State, HostReady s → s.armed = false → s.jobq = false → s.jobrun = false →
    exec .init s = .next { s with initok := false, hs := .init, hidx := 0, harg := [] }

/-- R244, R245: INIT's continuation: the next index, or success after index 20, or abort at the first failure. -/
def Obligations.InitWriteContinues : Prop :=
  ∀ (s : State) (bytes : List Byte), s.bus = .busy .host bytes → s.hs = .init →
    takeStep (.bus .ok) s =
      .next (
        let t : State := { s with bus := .free, trace := s.trace ++ [.done .host .ok] }
        if s.hidx.toNat < 20 then { t with hidx := s.hidx + 1 }
        else { t with hs := .idle, hidx := 0, initok := true, hres := .resOk, hval := 0 }) ∧
    takeStep (.bus .fail) s =
      .next { s with
        bus := .free, trace := s.trace ++ [.done .host .fail], hs := .idle, hidx := 0, initok := false
        hres := .eBus, hval := 0 }

/-- R246, R241: every complete INIT issues the same 21 writes in the script's order and leaves `INITOK = 1`, from any
state in which it may be presented.  `HARG` stays as INIT's presenting step leaves it, empty (10_state.md R35; log 15). -/
def Obligations.InitIssues21Writes : Prop :=
  ∀ (s : State) (rest : List AgentStep), HostReady s → s.armed = false → s.jobq = false → s.jobrun = false →
    s.bus = .free → s.pending = .op .host 0x8 :: hostWrites 21 ++ rest →
    let literal : List Byte := [0xAE, 0xD5, 0x80, 0xA8, 0x3F, 0xD3, 0x00, 0x40, 0xA1, 0xC8, 0xDA, 0x12, 0x81, 0x7F, 0xA4,
      0xA6, 0x8D, 0x14, 0x20, 0x02, 0xAF]
    runSteps 43 s =
      .next { s with
        pending := rest, trace := s.trace ++ okTrace .host (literal.map fun b => [0x00, b]), hs := .idle, hidx := 0
        harg := [], initok := true, hres := .resOk, hval := 0 }

/-- R245, R226: an INIT whose write of script index `n` fails issues that write last, logs nothing, and leaves
`INITOK = 0` and `HRES = E_BUS`; `HARG` stays as INIT's presenting step leaves it, empty (10_state.md R35; log 15). -/
def Obligations.FailedInitStopsAtItsWrite : Prop :=
  ∀ (s : State) (rest : List AgentStep) (n : Nat) (bytes : List Byte), HostReady s → s.armed = false →
    s.jobq = false → s.jobrun = false → s.bus = .free → initWrites[n]? = some bytes →
    s.pending = .op .host 0x8 :: hostWrites n ++ .hostIssue :: .bus .fail :: rest →
    runSteps (2 * n + 3) s =
      .next { s with
        pending := rest
        trace := s.trace ++ okTrace .host (initWrites.take n) ++ [.issue .host bytes, .done .host .fail]
        hs := .idle, hidx := 0, harg := [], initok := false, hres := .eBus, hval := 0 }

/-- R248: CONTRAST_GET returns the register. -/
def Obligations.ContrastGetReads : Prop :=
  ∀ s : State, HostReady s → exec .contrastGet s = .next { s with hres := .resOk, hval := s.contrast }

/-- R249, R250, R253: non-numeric input and values outside 0..255 end with E_INVAL, the register keeping its value and
no write being sent; an accepted value is in the register before any write, also when it is the value already there. -/
def Obligations.ContrastSetValidates : Prop :=
  (∀ (s : State) (v : BitVec 32) (nn : Bool), HostReady s → nn = true ∨ v.toInt < 0 ∨ 255 < v.toInt →
    exec (.contrastSet v nn) s = .next { s with hres := .eInval, hval := 0 }) ∧
  (∀ (s : State) (v : BitVec 32) (c : Byte), HostReady s → v.toInt = (c.toNat : Int) →
    exec (.contrastSet v false) s = .next { s with contrast := c, hs := .contrast, hidx := 0, harg := [c] })

/-- R250 to R252: the two writes of an accepted CONTRAST_SET, and the failure of either: the second is sent only after
the first succeeded, and the register keeps the accepted value. -/
def Obligations.ContrastPairGoesOut : Prop :=
  ∀ (s : State) (c : Byte) (rest : List AgentStep), s.hs = .contrast → s.hidx = 0 → s.harg = [c] → s.bus = .free →
    (s.pending = hostWrites 2 ++ rest → runSteps 4 s =
      .next { s with
        pending := rest, trace := s.trace ++ okTrace .host [[0x00, 0x81], [0x00, c]], hs := .idle, hidx := 0
        hres := .resOk, hval := 0 }) ∧
    (s.pending = .hostIssue :: .bus .fail :: rest → runSteps 2 s =
      .next { s with
        pending := rest, trace := s.trace ++ [.issue .host [0x00, 0x81], .done .host .fail], hs := .idle, hidx := 0
        hres := .eBus, hval := 0 }) ∧
    (s.pending = hostWrites 1 ++ .hostIssue :: .bus .fail :: rest → runSteps 4 s =
      .next { s with
        pending := rest
        trace := s.trace ++ okTrace .host [[0x00, 0x81]] ++ [.issue .host [0x00, c], .done .host .fail]
        hs := .idle, hidx := 0, hres := .eBus, hval := 0 })

/-- R251, R252: CONTRAST_SET's continuation: the second write is due after the first succeeded, the second's success
ends the operation, and a failure of either ends it with E_BUS, the register keeping its value. -/
def Obligations.ContrastWriteContinues : Prop :=
  ∀ (s : State) (bytes : List Byte), s.bus = .busy .host bytes → s.hs = .contrast →
    takeStep (.bus .ok) s =
      .next (
        let t : State := { s with bus := .free, trace := s.trace ++ [.done .host .ok] }
        if s.hidx = 0 then { t with hidx := 1 } else { t with hs := .idle, hidx := 0, hres := .resOk, hval := 0 }) ∧
    takeStep (.bus .fail) s =
      .next { s with
        bus := .free, trace := s.trace ++ [.done .host .fail], hs := .idle, hidx := 0, hres := .eBus, hval := 0 }

/-! ## Frames -/

/-- What TICK, REQ_FLUSH, ARM, DISARM, TEARDOWN and CONTRAST_GET leave unchanged: everything but the token and the
queue, `ARMED`, `HS`, the host's result, and a refusal's marks, each as named (10_state.md R42). -/
def Obligations.ControlFrame : Prop :=
  ∀ s t : State,
    (exec .tick s = .next t →
      t = { s with gate := t.gate, jobq := t.jobq, refused := t.refused, reason := t.reason }) ∧
    (exec .reqFlush s = .next t →
      t = { s with
        gate := t.gate, jobq := t.jobq, hres := t.hres, hval := t.hval, refused := t.refused, reason := t.reason }) ∧
    (exec .arm s = .next t ∨ exec .disarm s = .next t →
      t = { s with armed := t.armed, hres := t.hres, hval := t.hval, refused := t.refused, reason := t.reason }) ∧
    (exec .teardown s = .next t →
      t = { s with armed := t.armed, hs := t.hs, refused := t.refused, reason := t.reason }) ∧
    (exec .contrastGet s = .next t →
      t = { s with hres := t.hres, hval := t.hval, refused := t.refused, reason := t.reason })

/-- What the PIXEL operations, SYNC and JOB_START leave unchanged: every register but those named; of the Device Bitmap,
a PIXEL operation every byte but the one at its index, and SYNC and JOB_START every pixel outside the surface. -/
def Obligations.ConverterFrame : Prop :=
  ∀ (s t : State) (x y : BitVec 16),
    (exec (.pixelSet x y) s = .next t ∨ exec (.pixelClear x y) s = .next t ∨ exec (.pixelToggle x y) s = .next t →
      t = { s with
        db := t.db, log := t.log, hres := t.hres, hval := t.hval, refused := t.refused, reason := t.reason } ∧
      ∀ m, s.db = some m → ∃ m', t.db = some m' ∧
        ∀ a, a ≠ dbIndex x.toInt.toNat y.toInt.toNat → Memory.read m' a = Memory.read m a) ∧
    (exec .sync s = .next t →
      t = { s with
        db := t.db, log := t.log, hres := t.hres, hval := t.hval, refused := t.refused, reason := t.reason }) ∧
    (exec .jobStart s = .next t →
      t = { s with
        db := t.db, log := t.log, jobq := t.jobq, jobrun := t.jobrun, gate := t.gate, fpage := t.fpage,
        fslot := t.fslot, refused := t.refused, reason := t.reason }) ∧
    (exec .sync s = .next t ∨ exec .jobStart s = .next t →
      ∀ m, s.db = some m → ∃ m', t.db = some m' ∧
        ∀ x' y' : Nat, x' < 128 → y' < 64 → s.surf.ws ≤ (x' : Int) ∨ s.surf.hs ≤ (y' : Int) →
          readPixel m' x' y' = readPixel m x' y')

/-- What the senders' operations leave unchanged: FLUSH_STEP and the bus rows write `BUS` and `TRACE` alone; CMD, DATA
and INIT write the host sequencer (INIT also `INITOK`; that it writes `HARG`, to empty it, is read from 10_state.md R35,
log 15); CONTRAST_SET also `CONTRAST` and the host's result. -/
def Obligations.SenderFrame : Prop :=
  ∀ (s t : State) (c : Byte) (p k : BitVec 3) (v : BitVec 32) (nn : Bool) (bs : List Byte) (i : Instr),
    (i ∈ [.flushStep, .cmdw c, .dataw bs, .cbSelectPage p, .cbColumnLow, .cbColumnHigh, .cbSetContrast, .cbDisplayOff,
        .cbClockDivide, .cbMultiplex, .cbDisplayOffset, .cbStartLine, .cbSegmentRemap, .cbComScan, .cbComPins,
        .cbInitContrast, .cbEntireDisplay, .cbNormalPolarity, .cbChargePump, .cbAddressingMode, .cbDisplayOn] →
      exec i s = .next t →
      t = { s with bus := t.bus, trace := t.trace, refused := t.refused, reason := t.reason }) ∧
    (i ∈ [.cmd c, .data p k] → exec i s = .next t →
      t = { s with hs := t.hs, hidx := t.hidx, harg := t.harg, refused := t.refused, reason := t.reason }) ∧
    (exec .init s = .next t →
      t = { s with
        hs := t.hs, hidx := t.hidx, harg := t.harg, initok := t.initok, refused := t.refused, reason := t.reason }) ∧
    (exec (.contrastSet v nn) s = .next t →
      t = { s with
        hs := t.hs, hidx := t.hidx, harg := t.harg, contrast := t.contrast, hres := t.hres, hval := t.hval,
        refused := t.refused, reason := t.reason })

/-! ## Every step -/

/-- R26: under either value of `GATE_RELEASE` the token tells the jobs, and a worker write is outstanding only while a
job runs; every step keeps it. -/
def Obligations.TokenInvariantKept : Prop :=
  ∀ s t : State, TokenInv s → step s = .next t → TokenInv t

/-- R101: every step keeps it that the block issues no write but command writes and data chunk writes. -/
def Obligations.OnlyTwoFormatsEmitted : Prop :=
  ∀ s t : State, FormatInv s → step s = .next t → FormatInv t

/-- Every step keeps every invariant of a good state: the token (R26), the slot range (R28), the canonical bitmap, the
two formats (R101), whole writes one at a time (R37), positions that move only at completions (R41), the host sequencer
(R35; that `HARG` is empty for INIT through its presenting step is log 15), ARMED after INIT (R150), and the release
order (R153, R154). -/
def Obligations.GoodStatesStayGood : Prop :=
  ∀ s t : State, Good s → step s = .next t → Good t

/-- R40: `REFUSED` is never cleared, whatever step is taken. -/
def Obligations.RefusedIsSticky : Prop :=
  ∀ (a : AgentStep) (s t : State), takeStep a s = .next t → s.refused = true → t.refused = true

/-- R154, R304: a released block stays released and takes no further step but to refuse: every step leaves all of it
unchanged but the refusal's marks, the acting context, and the SURF agent's surface. -/
def Obligations.ReleasedBlockOnlyRefuses : Prop :=
  ∀ (a : AgentStep) (s t : State), ReleaseInv s → s.alive = false → takeStep a s = .next t →
    t = { s with refused := t.refused, reason := t.reason, actor := t.actor, surf := t.surf }

/-- R221: while a job runs, no step of any agent changes `DB`. -/
def Obligations.RunningFlushKeepsTheBitmap : Prop :=
  ∀ (a : AgentStep) (s t : State), s.jobrun = true → takeStep a s = .next t → t.db = s.db

/-- R279, R156: an outstanding write ends by its own completion alone: no other step of any agent frees the bus or
issues another, and under `ON_COMPLETE` a stuck worker write keeps the token set. -/
def Obligations.OnlyACompletionFreesTheBus : Prop :=
  ∀ (a : AgentStep) (s t : State) (o : Owner) (bytes : List Byte), s.bus = .busy o bytes → (∀ r, a ≠ .bus r) →
    takeStep a s = .next t →
    t.bus = s.bus ∧ t.trace = s.trace ∧
      (TokenInv s → s.gateRelease = .onComplete → o = .worker → t.gate = true)

/-- R38, R39: no rule reads `TRACE` or `LOG`: with other events before, every step does the same and appends the same
events. -/
def Obligations.OutputsAreNeverRead : Prop :=
  ∀ (a : AgentStep) (s t : State) (trace : List TxEvent) (log : List LogEvent),
    takeStep a { s with trace := [], log := [] } = .next t →
    takeStep a { s with trace := trace, log := log } = .next { t with trace := trace ++ t.trace, log := log ++ t.log }

/-- R254: no contrast operation reads or writes `DB`, `GATE` or the job state, and none depends on whether INIT has
run. -/
def Obligations.ContrastIgnoresTheBitmap : Prop :=
  ∀ (s t : State) (i : Instr) (v : BitVec 32) (nn : Bool) (db : Option Memory) (gate jobq jobrun initok : Bool),
    i = .contrastGet ∨ i = .contrastSet v nn → exec i s = .next t →
    exec i { s with db := db, gate := gate, jobq := jobq, jobrun := jobrun, initok := initok } =
      .next { t with db := db, gate := gate, jobq := jobq, jobrun := jobrun, initok := initok } ∧
    t.db = s.db ∧ t.gate = s.gate ∧ t.jobq = s.jobq ∧ t.jobrun = s.jobrun ∧ t.initok = s.initok

/-- R34: no step but a CONTRAST_SET's presenting step changes `CONTRAST`, and none changes the parameter
`GATE_RELEASE` (10_state.md R27; log 9). -/
def Obligations.OnlyContrastSetWritesContrast : Prop :=
  ∀ (a : AgentStep) (s t : State), takeStep a s = .next t →
    (t.contrast = s.contrast ∨ ∃ w v, a = .op .host w ∧ decodeWord w = .ok (.contrastSet v false) ∧
      v.toInt = (t.contrast.toNat : Int)) ∧
    t.gateRelease = s.gateRelease
end

