-- ==== Sys2Proof/Laws/Ops.lean ====
section
/-! SUPPORT. What each shared operation can do, once: the Device Bitmap's memory, the checks before an operation, the
issue and the completion of a bus write.  Later proofs cite these lemmas and do not unfold the operations. -/

namespace Sys2Proof.Machine

/-! The memory's operations. -/

theorem Memory.get?_write_self (m : Memory) (a : Nat) (v : Byte) : Memory.get? (Memory.write m a v) a = some v := by
  induction m with
  | nil => simp [Memory.write, Memory.get?]
  | cons c m ih =>
    obtain ⟨b, u⟩ := c
    simp only [Memory.write]
    split
    · simp [Memory.get?]
    · split
      · simp [Memory.get?]
      · rename_i h
        simp [Memory.get?, Ne.symm h, ih]

theorem Memory.get?_write_other (m : Memory) {a b : Nat} (v : Byte) (h : b ≠ a) :
    Memory.get? (Memory.write m a v) b = Memory.get? m b := by
  induction m with
  | nil => simp [Memory.write, Memory.get?, h.symm]
  | cons c m ih =>
    obtain ⟨d, u⟩ := c
    simp only [Memory.write]
    split
    · simp [Memory.get?, h.symm]
    · split
      · rename_i hd
        subst hd
        simp [Memory.get?, h.symm]
      · simp [Memory.get?, ih]

/-- A read after a write to the same index gives the byte written. -/
@[simp] theorem Memory.read_write_self (m : Memory) (a : Nat) (v : Byte) :
    Memory.read (Memory.write m a v) a = v := by
  simp [Memory.read, Memory.get?_write_self]

/-- A write leaves every other index as it was (20_memory.md R69). -/
theorem Memory.read_write_other (m : Memory) {a b : Nat} (v : Byte) (h : b ≠ a) :
    Memory.read (Memory.write m a v) b = Memory.read m b := by
  simp [Memory.read, Memory.get?_write_other m v h]

theorem Memory.mem_write {m : Memory} {a : Nat} {v : Byte} {c : Host.Cell} (h : c ∈ Memory.write m a v) :
    c = (a, v) ∨ c ∈ m := by
  induction m with
  | nil => simpa [Memory.write] using h
  | cons d m ih =>
    obtain ⟨b, u⟩ := d
    simp only [Memory.write] at h
    split at h
    · simpa using h
    · split at h
      · rcases List.mem_cons.1 h with h | h
        · exact .inl h
        · exact .inr (List.mem_cons_of_mem _ h)
      · rcases List.mem_cons.1 h with h | h
        · exact .inr (by simp [h])
        · exact (ih h).imp id (List.mem_cons_of_mem _)

/-- A write inside `DB[0..1023]` keeps the canonical form. -/
theorem Memory.wf_write {m : Memory} {a : Nat} (v : Byte) (hm : Memory.wf m) (ha : a < Config.dbSize) :
    Memory.wf (Memory.write m a v) := by
  obtain ⟨hs, hb⟩ := hm
  refine ⟨?_, fun c hc => ?_⟩
  · clear hb
    induction m with
    | nil => simp [Memory.write]
    | cons d m ih =>
      obtain ⟨b, u⟩ := d
      rw [List.pairwise_cons] at hs
      simp only [Memory.write]
      split
      · rename_i hab
        refine List.pairwise_cons.2 ⟨fun c hc => ?_, List.pairwise_cons.2 hs⟩
        rcases List.mem_cons.1 hc with rfl | hc
        · exact hab
        · exact lt_trans hab (hs.1 c hc)
      · split
        · rename_i hab
          subst hab
          exact List.pairwise_cons.2 hs
        · rename_i h1 h2
          refine List.pairwise_cons.2 ⟨fun c hc => ?_, ih hs.2⟩
          rcases Memory.mem_write hc with rfl | hc
          · show b < a
            omega
          · exact hs.1 c hc
  · rcases Memory.mem_write hc with rfl | hc
    · exact ha
    · exact hb c hc

/-- The empty memory of reset is canonical. -/
theorem Memory.wf_nil : Memory.wf [] := ⟨List.Pairwise.nil, by simp⟩

/-! The checks before an operation. -/

/-- An operation of the TIMER or the WORKER: refused after release, or to another context, or done. -/
theorem agentDo_eq (a : Issuer) (s : State) (f : State → State) :
    agentDo a s f =
      .next (if s.alive = false then refuse .released s else if s.actor = a then f s else refuse .wrongIssuer s) := by
  unfold agentDo agentCheck
  split <;> split_ifs at * <;> simp_all

/-- An operation of the HOST: refused after release, to another context, or while the host is busy, or done. -/
theorem hostDo_eq (s : State) (f : State → State) :
    hostDo s f =
      .next (if s.alive = false then refuse .released s
        else if s.actor ≠ .host then refuse .wrongIssuer s
        else if s.hs ≠ .idle then refuse .hostBusy s
        else f s) := by
  unfold hostDo hostCheck agentCheck
  split <;> split_ifs at * <;> simp_all

theorem hostDo_ready {s : State} (h : HostReady s) (f : State → State) : hostDo s f = .next (f s) := by
  obtain ⟨h1, h2, h3⟩ := h
  simp [hostDo_eq, h1, h2, h3]

/-- An operation of the HOST on the Device Bitmap, done. -/
theorem hostDb_ready {s : State} {m : Memory} (h : HostDbReady s m) (f : State → Memory → State) :
    hostDb s f = .next (f s m) := by
  obtain ⟨hr, h1, h2, h3⟩ := h
  simp [hostDb, hostDo_ready hr, h1, h2, withDb, h3]

/-- An operation that needs the Device Bitmap is refused once it is released, and done otherwise. -/
theorem withDb_cases (s : State) (f : Memory → State) :
    (s.db = none ∧ withDb s f = refuse .released s) ∨ ∃ m, s.db = some m ∧ withDb s f = f m := by
  unfold withDb
  cases h : s.db with
  | none => exact .inl ⟨rfl, rfl⟩
  | some m => exact .inr ⟨m, rfl, rfl⟩

/-! The bus. -/

/-- A sender's issue step issues its next write on a free bus, or holds. -/
theorem issueNext_cases (o : Owner) (s : State) :
    (∃ bytes, s.bus = .free ∧ nextWrite o s = some bytes ∧ issueNext o s = busIssue o bytes s) ∨ issueNext o s = s := by
  unfold issueNext
  split
  · exact .inl ⟨_, ‹_›, ‹_›, rfl⟩
  · exact .inr rfl

theorem issueNext_ready {o : Owner} {s : State} {bytes : List Byte} (hb : s.bus = .free)
    (hn : nextWrite o s = some bytes) : issueNext o s = busIssue o bytes s := by
  simp [issueNext, hb, hn]

/-- A bus row is refused to the TIMER; another context issues the write when it is its sender's next, or holds. -/
theorem issueWrite_cases (bytes : List Byte) (s : State) :
    (s.actor = .timer ∧ issueWrite bytes s = .next (refuse (if s.alive then .wrongIssuer else .released) s)) ∨
    (∃ o, senderOf s.actor = some o ∧ nextWrite o s = some bytes ∧ issueWrite bytes s = .next (issueNext o s)) ∨
    issueWrite bytes s = .next s := by
  unfold issueWrite
  cases h : s.actor <;> simp only [senderOf]
  · exact .inl (by simp)
  · by_cases hn : nextWrite .worker s = some bytes
    · exact .inr (.inl ⟨.worker, rfl, hn, by simp [hn]⟩)
    · exact .inr (.inr (by simp [hn, hold]))
  · by_cases hn : nextWrite .host s = some bytes
    · exact .inr (.inl ⟨.host, rfl, hn, by simp [hn]⟩)
    · exact .inr (.inr (by simp [hn, hold]))

/-- A completion frees the bus, records the answer, and lets the owner go on; with no write outstanding it holds. -/
theorem busComplete_cases (r : BusResult) (s : State) :
    (s.bus = .free ∧ busComplete r s = s) ∨
    ∃ o bytes, s.bus = .busy o bytes ∧
      busComplete r s = ownerContinue o r { s with bus := .free, trace := s.trace ++ [.done o r] } := by
  unfold busComplete
  cases h : s.bus with
  | free => exact .inl ⟨rfl, rfl⟩
  | busy o bytes => exact .inr ⟨o, bytes, rfl, rfl⟩

/-! The converter. -/

theorem inBounds_iff (x y : Int) : inBounds x y = true ↔ 0 ≤ x ∧ x < 128 ∧ 0 ≤ y ∧ y < 64 := by
  rw [inBounds, decide_eq_true_iff]
  simp [Config.width, Config.height]

/-- No pixel operation forms an index outside `DB[0..1023]` (20_memory.md R71). -/
theorem dbIndex_lt {x y : Int} (h : inBounds x y = true) : dbIndex x.toNat y.toNat < Config.dbSize := by
  rw [inBounds_iff] at h
  simp only [dbIndex, Config.width, Config.dbSize]
  omega

theorem wf_pixelOp (mode : PixelMode) (x y : Int) {r : Raster} (h : Memory.wf r.db) :
    Memory.wf (pixelOp mode x y r).db := by
  unfold pixelOp
  split
  · exact Memory.wf_write _ h (dbIndex_lt ‹_›)
  · exact h

/-- A fold over a list keeps what each of its steps keeps. -/
theorem foldl_keeps {α β : Type} {P : β → Prop} {f : β → α → β} (hf : ∀ b a, P b → P (f b a)) :
    ∀ (l : List α) (b : β), P b → P (l.foldl f b)
  | [], _, h => h
  | a :: l, b, h => foldl_keeps hf l (f b a) (hf b a h)

/-- SYNC keeps the canonical form of the Device Bitmap's memory. -/
theorem wf_syncLoop (S : Surface) {r : Raster} (h : Memory.wf r.db) : Memory.wf (syncLoop S r).db :=
  foldl_keeps (P := fun r : Raster => Memory.wf r.db)
    (fun _ _ h => foldl_keeps (P := fun r : Raster => Memory.wf r.db) (fun _ _ h => wf_pixelOp _ _ _ h) _ _ h) _ _ h

theorem wf_syncBody {S : Surface} {r r' : Raster} (h : Memory.wf r.db) (hs : syncBody S r = some r') :
    Memory.wf r'.db := by
  unfold syncBody at hs
  split at hs
  · cases hs
    exact wf_syncLoop S h
  · cases hs

/-- Under the surface contract no index outside the surface's bytes is read (20_memory.md R71). -/
theorem surfIndex_lt {S : Surface} (h : surfaceOk S = true) {x y : Nat} (hx : x < S.ws.toNat) (hy : y < S.hs.toNat) :
    y * S.stride.toNat + x / 8 < S.bytes.length := by
  simp only [surfaceOk, decide_eq_true_eq] at h
  obtain ⟨h1, h2, h3, h4⟩ := h
  lift S.ws to Nat using h1 with ws hws
  lift S.hs to Nat using h2 with hs hhs
  have h0 : 0 ≤ S.stride := by omega
  lift S.stride to Nat using h0 with st hst
  simp only [Int.toNat_natCast] at *
  have h5 : st * hs ≤ S.bytes.length := by exact_mod_cast h4
  have h6 : (y + 1) * st ≤ hs * st := Nat.mul_le_mul_right _ hy
  have h7 : x / 8 < st := by omega
  have h8 : (y + 1) * st = y * st + st := by ring
  have h9 : hs * st = st * hs := by ring
  omega

end Sys2Proof.Machine
end

