-- ==== Sys2Proof/Laws/PerInstr.lean ====
section
/-! SUPPORT. Statements for all instructions, one lemma per constructor.  `EncodedLength`: an operation's encoding is one
64-bit word, and a bus row's encoding is a write whose first byte gives its length (30_encoding.md R102, R126). -/

namespace Sys2Proof.Laws.EncodedLength

/-- Whether an encoding is a whole word, or a whole write by the length rule of R102. -/
def isWhole (busRow : Bool) : Encoded → Prop
  | .word _ => busRow = false
  | .bytes bs => busRow = true ∧ bs.head?.bind writeLength = some bs.length

/-- The rows whose encoding is a bus write (R101, R107 to R123). -/
def isBusRow : Instr → Bool
  | .cmdw _ | .dataw _ | .cbDisplayOff | .cbClockDivide | .cbMultiplex | .cbDisplayOffset | .cbStartLine
  | .cbSegmentRemap | .cbComScan | .cbComPins | .cbInitContrast | .cbEntireDisplay | .cbNormalPolarity
  | .cbChargePump | .cbAddressingMode | .cbDisplayOn | .cbSelectPage _ | .cbColumnLow | .cbColumnHigh
  | .cbSetContrast => true
  | .tick | .reqFlush | .pixelSet _ _ | .pixelClear _ _ | .pixelToggle _ _ | .sync | .flushStep | .cmd _ | .data _ _
  | .init | .contrastGet | .contrastSet _ _ | .arm | .disarm | .teardown | .jobStart | .reservedOpc0 _
  | .reservedOpcF _ | .reservedPixelMode3 _ => false

/-- A well-formed instruction's encoding is whole (R102, R126). -/
def Statement (i : Instr) : Prop := WellFormed i = true → isWhole (isBusRow i) (encode i)

theorem tick : Statement .tick := fun _ => rfl

theorem reqFlush : Statement .reqFlush := fun _ => rfl

theorem pixelSet (x y : BitVec 16) : Statement (.pixelSet x y) := fun _ => rfl

theorem pixelClear (x y : BitVec 16) : Statement (.pixelClear x y) := fun _ => rfl

theorem pixelToggle (x y : BitVec 16) : Statement (.pixelToggle x y) := fun _ => rfl

theorem sync : Statement .sync := fun _ => rfl

theorem flushStep : Statement .flushStep := fun _ => rfl

theorem cmd (c : Byte) : Statement (.cmd c) := fun _ => rfl

theorem data (p k : BitVec 3) : Statement (.data p k) := fun _ => rfl

theorem init : Statement .init := fun _ => rfl

theorem contrastGet : Statement .contrastGet := fun _ => rfl

theorem contrastSet (v : BitVec 32) (nn : Bool) : Statement (.contrastSet v nn) := fun _ => rfl

theorem arm : Statement .arm := fun _ => rfl

theorem disarm : Statement .disarm := fun _ => rfl

theorem teardown : Statement .teardown := fun _ => rfl

theorem jobStart : Statement .jobStart := fun _ => rfl

theorem reservedOpc0 (rest : BitVec 60) : Statement (.reservedOpc0 rest) := fun _ => rfl

theorem reservedOpcF (rest : BitVec 60) : Statement (.reservedOpcF rest) := fun _ => rfl

theorem reservedPixelMode3 (rest : BitVec 58) : Statement (.reservedPixelMode3 rest) := fun _ => rfl

theorem cmdw (c : Byte) : Statement (.cmdw c) := fun _ => ⟨rfl, rfl⟩

theorem dataw (bs : List Byte) : Statement (.dataw bs) := by
  intro h
  simp only [WellFormed, Config.chunk, beq_iff_eq] at h
  simp [encode, isWhole, isBusRow, writeLength, Config.cbData, Config.cbCmd, h]

theorem cbDisplayOff : Statement .cbDisplayOff := fun _ => ⟨rfl, rfl⟩

theorem cbClockDivide : Statement .cbClockDivide := fun _ => ⟨rfl, rfl⟩

theorem cbMultiplex : Statement .cbMultiplex := fun _ => ⟨rfl, rfl⟩

theorem cbDisplayOffset : Statement .cbDisplayOffset := fun _ => ⟨rfl, rfl⟩

theorem cbStartLine : Statement .cbStartLine := fun _ => ⟨rfl, rfl⟩

theorem cbSegmentRemap : Statement .cbSegmentRemap := fun _ => ⟨rfl, rfl⟩

theorem cbComScan : Statement .cbComScan := fun _ => ⟨rfl, rfl⟩

theorem cbComPins : Statement .cbComPins := fun _ => ⟨rfl, rfl⟩

theorem cbInitContrast : Statement .cbInitContrast := fun _ => ⟨rfl, rfl⟩

theorem cbEntireDisplay : Statement .cbEntireDisplay := fun _ => ⟨rfl, rfl⟩

theorem cbNormalPolarity : Statement .cbNormalPolarity := fun _ => ⟨rfl, rfl⟩

theorem cbChargePump : Statement .cbChargePump := fun _ => ⟨rfl, rfl⟩

theorem cbAddressingMode : Statement .cbAddressingMode := fun _ => ⟨rfl, rfl⟩

theorem cbDisplayOn : Statement .cbDisplayOn := fun _ => ⟨rfl, rfl⟩

theorem cbSelectPage (p : BitVec 3) : Statement (.cbSelectPage p) := fun _ => ⟨rfl, rfl⟩

theorem cbColumnLow : Statement .cbColumnLow := fun _ => ⟨rfl, rfl⟩

theorem cbColumnHigh : Statement .cbColumnHigh := fun _ => ⟨rfl, rfl⟩

theorem cbSetContrast : Statement .cbSetContrast := fun _ => ⟨rfl, rfl⟩

end Sys2Proof.Laws.EncodedLength
end

