-- ==== Sys2Proof/Laws/State.lean ====
section
/-! SUPPORT. The state's updates, field by field: each lemma is true by rfl, so that no later proof unfolds a record
update. -/

namespace Sys2Proof.Machine

/-! `busIssue` -/

@[simp] theorem busIssue_db (o : Owner) (bytes : List Byte) (s : State) : (busIssue o bytes s).db = s.db := rfl
@[simp] theorem busIssue_gate (o : Owner) (bytes : List Byte) (s : State) : (busIssue o bytes s).gate = s.gate := rfl
@[simp] theorem busIssue_jobq (o : Owner) (bytes : List Byte) (s : State) : (busIssue o bytes s).jobq = s.jobq := rfl
@[simp] theorem busIssue_jobrun (o : Owner) (bytes : List Byte) (s : State) : (busIssue o bytes s).jobrun = s.jobrun := rfl
@[simp] theorem busIssue_fpage (o : Owner) (bytes : List Byte) (s : State) : (busIssue o bytes s).fpage = s.fpage := rfl
@[simp] theorem busIssue_fslot (o : Owner) (bytes : List Byte) (s : State) : (busIssue o bytes s).fslot = s.fslot := rfl
@[simp] theorem busIssue_fres (o : Owner) (bytes : List Byte) (s : State) : (busIssue o bytes s).fres = s.fres := rfl
@[simp] theorem busIssue_armed (o : Owner) (bytes : List Byte) (s : State) : (busIssue o bytes s).armed = s.armed := rfl
@[simp] theorem busIssue_link (o : Owner) (bytes : List Byte) (s : State) : (busIssue o bytes s).link = s.link := rfl
@[simp] theorem busIssue_alive (o : Owner) (bytes : List Byte) (s : State) : (busIssue o bytes s).alive = s.alive := rfl
@[simp] theorem busIssue_initok (o : Owner) (bytes : List Byte) (s : State) : (busIssue o bytes s).initok = s.initok := rfl
@[simp] theorem busIssue_contrast (o : Owner) (bytes : List Byte) (s : State) : (busIssue o bytes s).contrast = s.contrast := rfl
@[simp] theorem busIssue_hs (o : Owner) (bytes : List Byte) (s : State) : (busIssue o bytes s).hs = s.hs := rfl
@[simp] theorem busIssue_hidx (o : Owner) (bytes : List Byte) (s : State) : (busIssue o bytes s).hidx = s.hidx := rfl
@[simp] theorem busIssue_harg (o : Owner) (bytes : List Byte) (s : State) : (busIssue o bytes s).harg = s.harg := rfl
@[simp] theorem busIssue_hres (o : Owner) (bytes : List Byte) (s : State) : (busIssue o bytes s).hres = s.hres := rfl
@[simp] theorem busIssue_hval (o : Owner) (bytes : List Byte) (s : State) : (busIssue o bytes s).hval = s.hval := rfl
@[simp] theorem busIssue_bus (o : Owner) (bytes : List Byte) (s : State) : (busIssue o bytes s).bus = .busy o bytes := rfl
@[simp] theorem busIssue_trace (o : Owner) (bytes : List Byte) (s : State) : (busIssue o bytes s).trace = s.trace ++ [.issue o bytes] := rfl
@[simp] theorem busIssue_log (o : Owner) (bytes : List Byte) (s : State) : (busIssue o bytes s).log = s.log := rfl
@[simp] theorem busIssue_refused (o : Owner) (bytes : List Byte) (s : State) : (busIssue o bytes s).refused = s.refused := rfl
@[simp] theorem busIssue_gateRelease (o : Owner) (bytes : List Byte) (s : State) : (busIssue o bytes s).gateRelease = s.gateRelease := rfl
@[simp] theorem busIssue_surf (o : Owner) (bytes : List Byte) (s : State) : (busIssue o bytes s).surf = s.surf := rfl
@[simp] theorem busIssue_reason (o : Owner) (bytes : List Byte) (s : State) : (busIssue o bytes s).reason = s.reason := rfl
@[simp] theorem busIssue_actor (o : Owner) (bytes : List Byte) (s : State) : (busIssue o bytes s).actor = s.actor := rfl
@[simp] theorem busIssue_pending (o : Owner) (bytes : List Byte) (s : State) : (busIssue o bytes s).pending = s.pending := rfl
@[simp] theorem busIssue_draws (o : Owner) (bytes : List Byte) (s : State) : (busIssue o bytes s).draws = s.draws := rfl

/-! `finish` -/

@[simp] theorem finish_db (r : HostResult) (v : Byte) (s : State) : (finish r v s).db = s.db := rfl
@[simp] theorem finish_gate (r : HostResult) (v : Byte) (s : State) : (finish r v s).gate = s.gate := rfl
@[simp] theorem finish_jobq (r : HostResult) (v : Byte) (s : State) : (finish r v s).jobq = s.jobq := rfl
@[simp] theorem finish_jobrun (r : HostResult) (v : Byte) (s : State) : (finish r v s).jobrun = s.jobrun := rfl
@[simp] theorem finish_fpage (r : HostResult) (v : Byte) (s : State) : (finish r v s).fpage = s.fpage := rfl
@[simp] theorem finish_fslot (r : HostResult) (v : Byte) (s : State) : (finish r v s).fslot = s.fslot := rfl
@[simp] theorem finish_fres (r : HostResult) (v : Byte) (s : State) : (finish r v s).fres = s.fres := rfl
@[simp] theorem finish_armed (r : HostResult) (v : Byte) (s : State) : (finish r v s).armed = s.armed := rfl
@[simp] theorem finish_link (r : HostResult) (v : Byte) (s : State) : (finish r v s).link = s.link := rfl
@[simp] theorem finish_alive (r : HostResult) (v : Byte) (s : State) : (finish r v s).alive = s.alive := rfl
@[simp] theorem finish_initok (r : HostResult) (v : Byte) (s : State) : (finish r v s).initok = s.initok := rfl
@[simp] theorem finish_contrast (r : HostResult) (v : Byte) (s : State) : (finish r v s).contrast = s.contrast := rfl
@[simp] theorem finish_hs (r : HostResult) (v : Byte) (s : State) : (finish r v s).hs = s.hs := rfl
@[simp] theorem finish_hidx (r : HostResult) (v : Byte) (s : State) : (finish r v s).hidx = s.hidx := rfl
@[simp] theorem finish_harg (r : HostResult) (v : Byte) (s : State) : (finish r v s).harg = s.harg := rfl
@[simp] theorem finish_hres (r : HostResult) (v : Byte) (s : State) : (finish r v s).hres = r := rfl
@[simp] theorem finish_hval (r : HostResult) (v : Byte) (s : State) : (finish r v s).hval = v := rfl
@[simp] theorem finish_bus (r : HostResult) (v : Byte) (s : State) : (finish r v s).bus = s.bus := rfl
@[simp] theorem finish_trace (r : HostResult) (v : Byte) (s : State) : (finish r v s).trace = s.trace := rfl
@[simp] theorem finish_log (r : HostResult) (v : Byte) (s : State) : (finish r v s).log = s.log := rfl
@[simp] theorem finish_refused (r : HostResult) (v : Byte) (s : State) : (finish r v s).refused = s.refused := rfl
@[simp] theorem finish_gateRelease (r : HostResult) (v : Byte) (s : State) : (finish r v s).gateRelease = s.gateRelease := rfl
@[simp] theorem finish_surf (r : HostResult) (v : Byte) (s : State) : (finish r v s).surf = s.surf := rfl
@[simp] theorem finish_reason (r : HostResult) (v : Byte) (s : State) : (finish r v s).reason = s.reason := rfl
@[simp] theorem finish_actor (r : HostResult) (v : Byte) (s : State) : (finish r v s).actor = s.actor := rfl
@[simp] theorem finish_pending (r : HostResult) (v : Byte) (s : State) : (finish r v s).pending = s.pending := rfl
@[simp] theorem finish_draws (r : HostResult) (v : Byte) (s : State) : (finish r v s).draws = s.draws := rfl

/-! `hostEnd` -/

@[simp] theorem hostEnd_db (r : HostResult) (s : State) : (hostEnd r s).db = s.db := rfl
@[simp] theorem hostEnd_gate (r : HostResult) (s : State) : (hostEnd r s).gate = s.gate := rfl
@[simp] theorem hostEnd_jobq (r : HostResult) (s : State) : (hostEnd r s).jobq = s.jobq := rfl
@[simp] theorem hostEnd_jobrun (r : HostResult) (s : State) : (hostEnd r s).jobrun = s.jobrun := rfl
@[simp] theorem hostEnd_fpage (r : HostResult) (s : State) : (hostEnd r s).fpage = s.fpage := rfl
@[simp] theorem hostEnd_fslot (r : HostResult) (s : State) : (hostEnd r s).fslot = s.fslot := rfl
@[simp] theorem hostEnd_fres (r : HostResult) (s : State) : (hostEnd r s).fres = s.fres := rfl
@[simp] theorem hostEnd_armed (r : HostResult) (s : State) : (hostEnd r s).armed = s.armed := rfl
@[simp] theorem hostEnd_link (r : HostResult) (s : State) : (hostEnd r s).link = s.link := rfl
@[simp] theorem hostEnd_alive (r : HostResult) (s : State) : (hostEnd r s).alive = s.alive := rfl
@[simp] theorem hostEnd_initok (r : HostResult) (s : State) : (hostEnd r s).initok = s.initok := rfl
@[simp] theorem hostEnd_contrast (r : HostResult) (s : State) : (hostEnd r s).contrast = s.contrast := rfl
@[simp] theorem hostEnd_hs (r : HostResult) (s : State) : (hostEnd r s).hs = .idle := rfl
@[simp] theorem hostEnd_hidx (r : HostResult) (s : State) : (hostEnd r s).hidx = 0 := rfl
@[simp] theorem hostEnd_harg (r : HostResult) (s : State) : (hostEnd r s).harg = s.harg := rfl
@[simp] theorem hostEnd_hres (r : HostResult) (s : State) : (hostEnd r s).hres = r := rfl
@[simp] theorem hostEnd_hval (r : HostResult) (s : State) : (hostEnd r s).hval = 0 := rfl
@[simp] theorem hostEnd_bus (r : HostResult) (s : State) : (hostEnd r s).bus = s.bus := rfl
@[simp] theorem hostEnd_trace (r : HostResult) (s : State) : (hostEnd r s).trace = s.trace := rfl
@[simp] theorem hostEnd_log (r : HostResult) (s : State) : (hostEnd r s).log = s.log := rfl
@[simp] theorem hostEnd_refused (r : HostResult) (s : State) : (hostEnd r s).refused = s.refused := rfl
@[simp] theorem hostEnd_gateRelease (r : HostResult) (s : State) : (hostEnd r s).gateRelease = s.gateRelease := rfl
@[simp] theorem hostEnd_surf (r : HostResult) (s : State) : (hostEnd r s).surf = s.surf := rfl
@[simp] theorem hostEnd_reason (r : HostResult) (s : State) : (hostEnd r s).reason = s.reason := rfl
@[simp] theorem hostEnd_actor (r : HostResult) (s : State) : (hostEnd r s).actor = s.actor := rfl
@[simp] theorem hostEnd_pending (r : HostResult) (s : State) : (hostEnd r s).pending = s.pending := rfl
@[simp] theorem hostEnd_draws (r : HostResult) (s : State) : (hostEnd r s).draws = s.draws := rfl

/-! `refuse` -/

@[simp] theorem refuse_db (r : RefuseReason) (s : State) : (refuse r s).db = s.db := rfl
@[simp] theorem refuse_gate (r : RefuseReason) (s : State) : (refuse r s).gate = s.gate := rfl
@[simp] theorem refuse_jobq (r : RefuseReason) (s : State) : (refuse r s).jobq = s.jobq := rfl
@[simp] theorem refuse_jobrun (r : RefuseReason) (s : State) : (refuse r s).jobrun = s.jobrun := rfl
@[simp] theorem refuse_fpage (r : RefuseReason) (s : State) : (refuse r s).fpage = s.fpage := rfl
@[simp] theorem refuse_fslot (r : RefuseReason) (s : State) : (refuse r s).fslot = s.fslot := rfl
@[simp] theorem refuse_fres (r : RefuseReason) (s : State) : (refuse r s).fres = s.fres := rfl
@[simp] theorem refuse_armed (r : RefuseReason) (s : State) : (refuse r s).armed = s.armed := rfl
@[simp] theorem refuse_link (r : RefuseReason) (s : State) : (refuse r s).link = s.link := rfl
@[simp] theorem refuse_alive (r : RefuseReason) (s : State) : (refuse r s).alive = s.alive := rfl
@[simp] theorem refuse_initok (r : RefuseReason) (s : State) : (refuse r s).initok = s.initok := rfl
@[simp] theorem refuse_contrast (r : RefuseReason) (s : State) : (refuse r s).contrast = s.contrast := rfl
@[simp] theorem refuse_hs (r : RefuseReason) (s : State) : (refuse r s).hs = s.hs := rfl
@[simp] theorem refuse_hidx (r : RefuseReason) (s : State) : (refuse r s).hidx = s.hidx := rfl
@[simp] theorem refuse_harg (r : RefuseReason) (s : State) : (refuse r s).harg = s.harg := rfl
@[simp] theorem refuse_hres (r : RefuseReason) (s : State) : (refuse r s).hres = s.hres := rfl
@[simp] theorem refuse_hval (r : RefuseReason) (s : State) : (refuse r s).hval = s.hval := rfl
@[simp] theorem refuse_bus (r : RefuseReason) (s : State) : (refuse r s).bus = s.bus := rfl
@[simp] theorem refuse_trace (r : RefuseReason) (s : State) : (refuse r s).trace = s.trace := rfl
@[simp] theorem refuse_log (r : RefuseReason) (s : State) : (refuse r s).log = s.log := rfl
@[simp] theorem refuse_refused (r : RefuseReason) (s : State) : (refuse r s).refused = true := rfl
@[simp] theorem refuse_gateRelease (r : RefuseReason) (s : State) : (refuse r s).gateRelease = s.gateRelease := rfl
@[simp] theorem refuse_surf (r : RefuseReason) (s : State) : (refuse r s).surf = s.surf := rfl
@[simp] theorem refuse_reason (r : RefuseReason) (s : State) : (refuse r s).reason = some r := rfl
@[simp] theorem refuse_actor (r : RefuseReason) (s : State) : (refuse r s).actor = s.actor := rfl
@[simp] theorem refuse_pending (r : RefuseReason) (s : State) : (refuse r s).pending = s.pending := rfl
@[simp] theorem refuse_draws (r : RefuseReason) (s : State) : (refuse r s).draws = s.draws := rfl

/-! `jobEnd` -/

@[simp] theorem jobEnd_db (r : FlushResult) (s : State) : (jobEnd r s).db = s.db := rfl
@[simp] theorem jobEnd_gate (r : FlushResult) (s : State) : (jobEnd r s).gate = gateAtEnd s := rfl
@[simp] theorem jobEnd_jobq (r : FlushResult) (s : State) : (jobEnd r s).jobq = s.jobq := rfl
@[simp] theorem jobEnd_jobrun (r : FlushResult) (s : State) : (jobEnd r s).jobrun = false := rfl
@[simp] theorem jobEnd_fpage (r : FlushResult) (s : State) : (jobEnd r s).fpage = s.fpage := rfl
@[simp] theorem jobEnd_fslot (r : FlushResult) (s : State) : (jobEnd r s).fslot = s.fslot := rfl
@[simp] theorem jobEnd_fres (r : FlushResult) (s : State) : (jobEnd r s).fres = r := rfl
@[simp] theorem jobEnd_armed (r : FlushResult) (s : State) : (jobEnd r s).armed = s.armed := rfl
@[simp] theorem jobEnd_link (r : FlushResult) (s : State) : (jobEnd r s).link = s.link := rfl
@[simp] theorem jobEnd_alive (r : FlushResult) (s : State) : (jobEnd r s).alive = s.alive := rfl
@[simp] theorem jobEnd_initok (r : FlushResult) (s : State) : (jobEnd r s).initok = s.initok := rfl
@[simp] theorem jobEnd_contrast (r : FlushResult) (s : State) : (jobEnd r s).contrast = s.contrast := rfl
@[simp] theorem jobEnd_hs (r : FlushResult) (s : State) : (jobEnd r s).hs = s.hs := rfl
@[simp] theorem jobEnd_hidx (r : FlushResult) (s : State) : (jobEnd r s).hidx = s.hidx := rfl
@[simp] theorem jobEnd_harg (r : FlushResult) (s : State) : (jobEnd r s).harg = s.harg := rfl
@[simp] theorem jobEnd_hres (r : FlushResult) (s : State) : (jobEnd r s).hres = s.hres := rfl
@[simp] theorem jobEnd_hval (r : FlushResult) (s : State) : (jobEnd r s).hval = s.hval := rfl
@[simp] theorem jobEnd_bus (r : FlushResult) (s : State) : (jobEnd r s).bus = s.bus := rfl
@[simp] theorem jobEnd_trace (r : FlushResult) (s : State) : (jobEnd r s).trace = s.trace := rfl
@[simp] theorem jobEnd_log (r : FlushResult) (s : State) : (jobEnd r s).log = s.log := rfl
@[simp] theorem jobEnd_refused (r : FlushResult) (s : State) : (jobEnd r s).refused = s.refused := rfl
@[simp] theorem jobEnd_gateRelease (r : FlushResult) (s : State) : (jobEnd r s).gateRelease = s.gateRelease := rfl
@[simp] theorem jobEnd_surf (r : FlushResult) (s : State) : (jobEnd r s).surf = s.surf := rfl
@[simp] theorem jobEnd_reason (r : FlushResult) (s : State) : (jobEnd r s).reason = s.reason := rfl
@[simp] theorem jobEnd_actor (r : FlushResult) (s : State) : (jobEnd r s).actor = s.actor := rfl
@[simp] theorem jobEnd_pending (r : FlushResult) (s : State) : (jobEnd r s).pending = s.pending := rfl
@[simp] theorem jobEnd_draws (r : FlushResult) (s : State) : (jobEnd r s).draws = s.draws := rfl

/-! `putRaster` -/

@[simp] theorem putRaster_db (s : State) (r : Raster) : (putRaster s r).db = some r.db := rfl
@[simp] theorem putRaster_gate (s : State) (r : Raster) : (putRaster s r).gate = s.gate := rfl
@[simp] theorem putRaster_jobq (s : State) (r : Raster) : (putRaster s r).jobq = s.jobq := rfl
@[simp] theorem putRaster_jobrun (s : State) (r : Raster) : (putRaster s r).jobrun = s.jobrun := rfl
@[simp] theorem putRaster_fpage (s : State) (r : Raster) : (putRaster s r).fpage = s.fpage := rfl
@[simp] theorem putRaster_fslot (s : State) (r : Raster) : (putRaster s r).fslot = s.fslot := rfl
@[simp] theorem putRaster_fres (s : State) (r : Raster) : (putRaster s r).fres = s.fres := rfl
@[simp] theorem putRaster_armed (s : State) (r : Raster) : (putRaster s r).armed = s.armed := rfl
@[simp] theorem putRaster_link (s : State) (r : Raster) : (putRaster s r).link = s.link := rfl
@[simp] theorem putRaster_alive (s : State) (r : Raster) : (putRaster s r).alive = s.alive := rfl
@[simp] theorem putRaster_initok (s : State) (r : Raster) : (putRaster s r).initok = s.initok := rfl
@[simp] theorem putRaster_contrast (s : State) (r : Raster) : (putRaster s r).contrast = s.contrast := rfl
@[simp] theorem putRaster_hs (s : State) (r : Raster) : (putRaster s r).hs = s.hs := rfl
@[simp] theorem putRaster_hidx (s : State) (r : Raster) : (putRaster s r).hidx = s.hidx := rfl
@[simp] theorem putRaster_harg (s : State) (r : Raster) : (putRaster s r).harg = s.harg := rfl
@[simp] theorem putRaster_hres (s : State) (r : Raster) : (putRaster s r).hres = .resOk := rfl
@[simp] theorem putRaster_hval (s : State) (r : Raster) : (putRaster s r).hval = 0 := rfl
@[simp] theorem putRaster_bus (s : State) (r : Raster) : (putRaster s r).bus = s.bus := rfl
@[simp] theorem putRaster_trace (s : State) (r : Raster) : (putRaster s r).trace = s.trace := rfl
@[simp] theorem putRaster_log (s : State) (r : Raster) : (putRaster s r).log = r.log := rfl
@[simp] theorem putRaster_refused (s : State) (r : Raster) : (putRaster s r).refused = s.refused := rfl
@[simp] theorem putRaster_gateRelease (s : State) (r : Raster) : (putRaster s r).gateRelease = s.gateRelease := rfl
@[simp] theorem putRaster_surf (s : State) (r : Raster) : (putRaster s r).surf = s.surf := rfl
@[simp] theorem putRaster_reason (s : State) (r : Raster) : (putRaster s r).reason = s.reason := rfl
@[simp] theorem putRaster_actor (s : State) (r : Raster) : (putRaster s r).actor = s.actor := rfl
@[simp] theorem putRaster_pending (s : State) (r : Raster) : (putRaster s r).pending = s.pending := rfl
@[simp] theorem putRaster_draws (s : State) (r : Raster) : (putRaster s r).draws = s.draws := rfl

/-! `actAs` -/

@[simp] theorem actAs_db (s : State) (a : Issuer) : (s.actAs a).db = s.db := rfl
@[simp] theorem actAs_gate (s : State) (a : Issuer) : (s.actAs a).gate = s.gate := rfl
@[simp] theorem actAs_jobq (s : State) (a : Issuer) : (s.actAs a).jobq = s.jobq := rfl
@[simp] theorem actAs_jobrun (s : State) (a : Issuer) : (s.actAs a).jobrun = s.jobrun := rfl
@[simp] theorem actAs_fpage (s : State) (a : Issuer) : (s.actAs a).fpage = s.fpage := rfl
@[simp] theorem actAs_fslot (s : State) (a : Issuer) : (s.actAs a).fslot = s.fslot := rfl
@[simp] theorem actAs_fres (s : State) (a : Issuer) : (s.actAs a).fres = s.fres := rfl
@[simp] theorem actAs_armed (s : State) (a : Issuer) : (s.actAs a).armed = s.armed := rfl
@[simp] theorem actAs_link (s : State) (a : Issuer) : (s.actAs a).link = s.link := rfl
@[simp] theorem actAs_alive (s : State) (a : Issuer) : (s.actAs a).alive = s.alive := rfl
@[simp] theorem actAs_initok (s : State) (a : Issuer) : (s.actAs a).initok = s.initok := rfl
@[simp] theorem actAs_contrast (s : State) (a : Issuer) : (s.actAs a).contrast = s.contrast := rfl
@[simp] theorem actAs_hs (s : State) (a : Issuer) : (s.actAs a).hs = s.hs := rfl
@[simp] theorem actAs_hidx (s : State) (a : Issuer) : (s.actAs a).hidx = s.hidx := rfl
@[simp] theorem actAs_harg (s : State) (a : Issuer) : (s.actAs a).harg = s.harg := rfl
@[simp] theorem actAs_hres (s : State) (a : Issuer) : (s.actAs a).hres = s.hres := rfl
@[simp] theorem actAs_hval (s : State) (a : Issuer) : (s.actAs a).hval = s.hval := rfl
@[simp] theorem actAs_bus (s : State) (a : Issuer) : (s.actAs a).bus = s.bus := rfl
@[simp] theorem actAs_trace (s : State) (a : Issuer) : (s.actAs a).trace = s.trace := rfl
@[simp] theorem actAs_log (s : State) (a : Issuer) : (s.actAs a).log = s.log := rfl
@[simp] theorem actAs_refused (s : State) (a : Issuer) : (s.actAs a).refused = s.refused := rfl
@[simp] theorem actAs_gateRelease (s : State) (a : Issuer) : (s.actAs a).gateRelease = s.gateRelease := rfl
@[simp] theorem actAs_surf (s : State) (a : Issuer) : (s.actAs a).surf = s.surf := rfl
@[simp] theorem actAs_reason (s : State) (a : Issuer) : (s.actAs a).reason = s.reason := rfl
@[simp] theorem actAs_actor (s : State) (a : Issuer) : (s.actAs a).actor = a := rfl
@[simp] theorem actAs_pending (s : State) (a : Issuer) : (s.actAs a).pending = s.pending := rfl
@[simp] theorem actAs_draws (s : State) (a : Issuer) : (s.actAs a).draws = s.draws := rfl

/-! `admitJob` writes the token and the queue alone (41_scheduler_dispatcher.md R143). -/

@[simp] theorem admitJob_gate (s : State) : (admitJob s).gate = true := by
  unfold admitJob
  split
  · assumption
  · rfl

@[simp] theorem admitJob_jobq (s : State) : (admitJob s).jobq = (s.jobq || !s.gate) := by
  unfold admitJob
  cases h : s.gate <;> simp

@[simp] theorem admitJob_db (s : State) : (admitJob s).db = s.db := by
  unfold admitJob
  split <;> rfl

@[simp] theorem admitJob_jobrun (s : State) : (admitJob s).jobrun = s.jobrun := by
  unfold admitJob
  split <;> rfl

@[simp] theorem admitJob_fpage (s : State) : (admitJob s).fpage = s.fpage := by
  unfold admitJob
  split <;> rfl

@[simp] theorem admitJob_fslot (s : State) : (admitJob s).fslot = s.fslot := by
  unfold admitJob
  split <;> rfl

@[simp] theorem admitJob_fres (s : State) : (admitJob s).fres = s.fres := by
  unfold admitJob
  split <;> rfl

@[simp] theorem admitJob_armed (s : State) : (admitJob s).armed = s.armed := by
  unfold admitJob
  split <;> rfl

@[simp] theorem admitJob_link (s : State) : (admitJob s).link = s.link := by
  unfold admitJob
  split <;> rfl

@[simp] theorem admitJob_alive (s : State) : (admitJob s).alive = s.alive := by
  unfold admitJob
  split <;> rfl

@[simp] theorem admitJob_initok (s : State) : (admitJob s).initok = s.initok := by
  unfold admitJob
  split <;> rfl

@[simp] theorem admitJob_contrast (s : State) : (admitJob s).contrast = s.contrast := by
  unfold admitJob
  split <;> rfl

@[simp] theorem admitJob_hs (s : State) : (admitJob s).hs = s.hs := by
  unfold admitJob
  split <;> rfl

@[simp] theorem admitJob_hidx (s : State) : (admitJob s).hidx = s.hidx := by
  unfold admitJob
  split <;> rfl

@[simp] theorem admitJob_harg (s : State) : (admitJob s).harg = s.harg := by
  unfold admitJob
  split <;> rfl

@[simp] theorem admitJob_hres (s : State) : (admitJob s).hres = s.hres := by
  unfold admitJob
  split <;> rfl

@[simp] theorem admitJob_hval (s : State) : (admitJob s).hval = s.hval := by
  unfold admitJob
  split <;> rfl

@[simp] theorem admitJob_bus (s : State) : (admitJob s).bus = s.bus := by
  unfold admitJob
  split <;> rfl

@[simp] theorem admitJob_trace (s : State) : (admitJob s).trace = s.trace := by
  unfold admitJob
  split <;> rfl

@[simp] theorem admitJob_log (s : State) : (admitJob s).log = s.log := by
  unfold admitJob
  split <;> rfl

@[simp] theorem admitJob_refused (s : State) : (admitJob s).refused = s.refused := by
  unfold admitJob
  split <;> rfl

@[simp] theorem admitJob_gateRelease (s : State) : (admitJob s).gateRelease = s.gateRelease := by
  unfold admitJob
  split <;> rfl

@[simp] theorem admitJob_surf (s : State) : (admitJob s).surf = s.surf := by
  unfold admitJob
  split <;> rfl

@[simp] theorem admitJob_reason (s : State) : (admitJob s).reason = s.reason := by
  unfold admitJob
  split <;> rfl

@[simp] theorem admitJob_actor (s : State) : (admitJob s).actor = s.actor := by
  unfold admitJob
  split <;> rfl

@[simp] theorem admitJob_pending (s : State) : (admitJob s).pending = s.pending := by
  unfold admitJob
  split <;> rfl

@[simp] theorem admitJob_draws (s : State) : (admitJob s).draws = s.draws := by
  unfold admitJob
  split <;> rfl

@[simp] theorem hold_eq (s : State) : hold s = s := rfl

end Sys2Proof.Machine
end

