-- ==== Sys2Proof/Laws/Step.lean ====
section
/-! SUPPORT. What one step can do, said once: every meaning, and every step of an agent, makes one of the changes of
`Change`.  A proof about every step takes that case split and does not unfold the operations. -/

namespace Sys2Proof.Machine

/-- One change of the block, with what holds in the state that makes it. -/
inductive Change (s : State) : State → Prop
  | hold : Change s s
  | refuse (r : RefuseReason) : Change s (refuse r s)
  | issue (o : Owner) (bytes : List Byte) (free : s.bus = .free) (due : nextWrite o s = some bytes) :
      Change s (busIssue o bytes s)
  | complete (o : Owner) (bytes : List Byte) (r : BusResult) (busy : s.bus = .busy o bytes) :
      Change s (ownerContinue o r { s with bus := .free, trace := s.trace ++ [.done o r] })
  | tick (alive : s.alive = true) (armed : s.armed = true) (link : s.link = true) : Change s (admitJob s)
  | reqFlush (alive : s.alive = true) (idle : s.hs = .idle) :
      Change s (finish .resOk (if s.gate then 0 else 1) (admitJob s))
  | raster (alive : s.alive = true) (idle : s.hs = .idle) (jobq : s.jobq = false) (jobrun : s.jobrun = false)
      (m : Memory) (r : Raster) (db : s.db = some m) (wf : Memory.wf m → Memory.wf r.db)
      (log : ∃ new, r.log = s.log ++ new) : Change s (putRaster s r)
  | cmd (alive : s.alive = true) (idle : s.hs = .idle) (c : Byte) :
      Change s { s with hs := .cmd, hidx := 0, harg := commandWrite c }
  | data (alive : s.alive = true) (idle : s.hs = .idle) (m : Memory) (db : s.db = some m) (p k : BitVec 3) :
      Change s { s with hs := .data, hidx := 0, harg := dataWrite m p.toNat k.toNat }
  | init (alive : s.alive = true) (idle : s.hs = .idle) (armed : s.armed = false) (jobq : s.jobq = false)
      (jobrun : s.jobrun = false) : Change s { s with initok := false, hs := .init, hidx := 0, harg := [] }
  | result (alive : s.alive = true) (idle : s.hs = .idle) (r : HostResult) (v : Byte) : Change s (finish r v s)
  | contrast (alive : s.alive = true) (idle : s.hs = .idle) (c : Byte) :
      Change s { s with contrast := c, hs := .contrast, hidx := 0, harg := [c] }
  | arm (alive : s.alive = true) (idle : s.hs = .idle) (initok : s.initok = true) :
      Change s (finish .resOk 0 { s with armed := true })
  | disarm (alive : s.alive = true) (idle : s.hs = .idle) : Change s (finish .resOk 0 { s with armed := false })
  | teardown (alive : s.alive = true) (idle : s.hs = .idle) : Change s { s with armed := false, hs := .teardown }
  | jobStart (alive : s.alive = true) (jobq : s.jobq = true) (jobrun : s.jobrun = false) (m : Memory) (r : Raster)
      (db : s.db = some m) (wf : Memory.wf m → Memory.wf r.db) (log : ∃ new, r.log = s.log ++ new) :
      Change s { s with
        jobq := false, jobrun := true, gate := gateAtStart s, db := some r.db, log := r.log, fpage := 0, fslot := 0 }
  | release (waits : s.hs = .teardown) (jobq : s.jobq = false) (jobrun : s.jobrun = false) (free : s.bus = .free) :
      Change s (finish .resOk 0 { s with alive := false, link := false, db := none, hs := .idle })
  | surface (S : Surface) : Change s { s with surf := S }

theorem change_agentDo {a : Issuer} {s t : State} {f : State → State} (h : agentDo a s f = .next t)
    (hf : s.alive = true → Change s (f s)) : Change s t := by
  rw [agentDo_eq] at h
  cases h
  split_ifs with h1
  · exact .refuse _
  · exact hf (by simpa using h1)
  · exact .refuse _

theorem change_hostDo {s t : State} {f : State → State} (h : hostDo s f = .next t)
    (hf : s.alive = true → s.hs = .idle → Change s (f s)) : Change s t := by
  rw [hostDo_eq] at h
  cases h
  split_ifs with h1 h2 h3
  · exact .refuse _
  · exact .refuse _
  · exact .refuse _
  · exact hf (by simpa using h1) (by simpa using h3)

theorem change_withDb {s : State} {f : Memory → State} (hf : ∀ m, s.db = some m → Change s (f m)) :
    Change s (withDb s f) := by
  rcases withDb_cases s f with ⟨_, e⟩ | ⟨m, hm, e⟩ <;> rw [e]
  · exact .refuse _
  · exact hf m hm

theorem change_hostDb {s t : State} {f : State → Memory → State} (h : hostDb s f = .next t)
    (hf : ∀ m, s.db = some m → s.alive = true → s.hs = .idle → s.jobq = false → s.jobrun = false → Change s (f s m)) :
    Change s t := by
  refine change_hostDo h fun h1 h2 => ?_
  split_ifs with h3
  · exact .refuse _
  · simp only [Bool.or_eq_true, not_or, Bool.not_eq_true] at h3
    exact change_withDb fun m hm => hf m hm h1 h2 h3.1 h3.2

theorem change_issueNext (o : Owner) (s : State) : Change s (issueNext o s) := by
  rcases issueNext_cases o s with ⟨b, h1, h2, e⟩ | e <;> rw [e]
  · exact .issue _ _ h1 h2
  · exact .hold

theorem change_issueWrite {bytes : List Byte} {s t : State} (h : issueWrite bytes s = .next t) : Change s t := by
  rcases issueWrite_cases bytes s with ⟨_, e⟩ | ⟨o, _, _, e⟩ | e <;> rw [e] at h <;> cases h
  · exact .refuse _
  · exact change_issueNext _ _
  · exact .hold

/-- A pixel operation only appends to the log. -/
theorem log_pixelOp (mode : PixelMode) (x y : Int) (r : Raster) : ∃ new, (pixelOp mode x y r).log = r.log ++ new := by
  unfold pixelOp
  split
  · exact ⟨[], by simp⟩
  · exact ⟨_, rfl⟩

/-- SYNC only appends to the log. -/
theorem log_syncLoop (S : Surface) (r : Raster) : ∃ new, (syncLoop S r).log = r.log ++ new := by
  have keep {b : Raster} {mode : PixelMode} {x y : Int} (h : ∃ new, b.log = r.log ++ new) :
      ∃ new, (pixelOp mode x y b).log = r.log ++ new := by
    obtain ⟨n1, h1⟩ := h
    obtain ⟨n2, h2⟩ := log_pixelOp mode x y b
    exact ⟨n1 ++ n2, by rw [h2, h1, List.append_assoc]⟩
  exact foldl_keeps (P := fun b : Raster => ∃ new, b.log = r.log ++ new)
    (fun _ _ h => foldl_keeps (P := fun b : Raster => ∃ new, b.log = r.log ++ new) (fun _ _ h => keep h) _ _ h) _ _
    ⟨[], by simp⟩

theorem log_syncBody {S : Surface} {r r' : Raster} (h : syncBody S r = some r') : ∃ new, r'.log = r.log ++ new := by
  unfold syncBody at h
  split at h
  · cases h
    exact log_syncLoop S r
  · cases h

theorem change_pixel {mode : PixelMode} {x y : BitVec 16} {s t : State} (h : hostPixel mode x y s = .next t) :
    Change s t :=
  change_hostDb h fun m hm h1 h2 h3 h4 =>
    .raster h1 h2 h3 h4 m _ hm (fun hw => wf_pixelOp _ _ _ hw) (log_pixelOp _ _ _ _)

theorem change_sync {s t : State} (h : execSync s = .next t) : Change s t := by
  refine change_hostDb h fun m hm h1 h2 h3 h4 => ?_
  cases hs : syncBody s.surf ⟨m, s.log⟩ with
  | none => exact .refuse _
  | some r =>
    exact .raster h1 h2 h3 h4 m r hm (fun hw => wf_syncBody (r := ⟨m, s.log⟩) hw hs) (log_syncBody hs)

theorem change_tick {s t : State} (h : execTick s = .next t) : Change s t := by
  refine change_agentDo h fun h1 => ?_
  split_ifs with h2 h3
  · exact .tick h1 h2 h3
  · exact .hold
  · exact .hold

theorem change_jobStart {s t : State} (h : execJobStart s = .next t) : Change s t := by
  refine change_agentDo h fun h1 => ?_
  split_ifs with h2
  · simp only [Bool.and_eq_true, Bool.not_eq_true'] at h2
    refine change_withDb fun m hm => ?_
    cases hs : syncBody s.surf ⟨m, s.log⟩ with
    | none => exact .refuse _
    | some r =>
      exact .jobStart h1 h2.1 h2.2 m r hm (fun hw => wf_syncBody (r := ⟨m, s.log⟩) hw hs) (log_syncBody hs)
  · exact .hold

theorem change_init {s t : State} (h : execInit s = .next t) : Change s t := by
  refine change_hostDo h fun h1 h2 => ?_
  split_ifs with h3
  · exact .refuse _
  · simp only [Bool.or_eq_true, not_or, Bool.not_eq_true] at h3
    exact .init h1 h2 h3.1.1 h3.1.2 h3.2

theorem change_arm {s t : State} (h : execArm s = .next t) : Change s t := by
  refine change_hostDo h fun h1 h2 => ?_
  split_ifs with h3
  · exact .arm h1 h2 h3
  · exact .refuse _

theorem change_contrastSet {v : BitVec 32} {nn : Bool} {s t : State} (h : execContrastSet v nn s = .next t) :
    Change s t := by
  refine change_hostDo h fun h1 h2 => ?_
  cases contrastInput v nn with
  | none => exact .result h1 h2 _ _
  | some c => exact .contrast h1 h2 c

theorem change_reqFlush {s t : State} (h : execReqFlush s = .next t) : Change s t :=
  change_hostDo h fun h1 h2 => .reqFlush h1 h2

theorem change_flushStep {s t : State} (h : execFlushStep s = .next t) : Change s t :=
  change_agentDo h fun _ => change_issueNext _ _

theorem change_cmd {c : Byte} {s t : State} (h : execCmd c s = .next t) : Change s t :=
  change_hostDo h fun h1 h2 => .cmd h1 h2 c

theorem change_data {p k : BitVec 3} {s t : State} (h : execData p k s = .next t) : Change s t :=
  change_hostDo h fun h1 h2 => change_withDb fun m hm => .data h1 h2 m hm p k

theorem change_contrastGet {s t : State} (h : execContrastGet s = .next t) : Change s t :=
  change_hostDo h fun h1 h2 => .result h1 h2 _ _

theorem change_disarm {s t : State} (h : execDisarm s = .next t) : Change s t :=
  change_hostDo h fun h1 h2 => .disarm h1 h2

theorem change_teardown {s t : State} (h : execTeardown s = .next t) : Change s t :=
  change_hostDo h fun h1 h2 => .teardown h1 h2

/-- Every instruction makes one of the changes. -/
theorem change_exec {i : Instr} {s t : State} (h : exec i s = .next t) : Change s t := by
  cases i with
  | tick => exact change_tick h
  | reqFlush => exact change_reqFlush h
  | pixelSet x y => exact change_pixel h
  | pixelClear x y => exact change_pixel h
  | pixelToggle x y => exact change_pixel h
  | sync => exact change_sync h
  | flushStep => exact change_flushStep h
  | cmd c => exact change_cmd h
  | data p k => exact change_data h
  | init => exact change_init h
  | contrastGet => exact change_contrastGet h
  | contrastSet v nn => exact change_contrastSet h
  | arm => exact change_arm h
  | disarm => exact change_disarm h
  | teardown => exact change_teardown h
  | jobStart => exact change_jobStart h
  | reservedOpc0 _ => cases h; exact .refuse _
  | reservedOpcF _ => cases h; exact .refuse _
  | reservedPixelMode3 _ => cases h; exact .refuse _
  | _ => exact change_issueWrite h

/-- Every step of an agent makes one of the changes, in the context that takes it. -/
theorem change_takeStep {a : AgentStep} {s t : State} (h : takeStep a s = .next t) :
    ∃ c, Change { s with actor := c } t := by
  cases a with
  | op issuer w =>
    refine ⟨issuer, ?_⟩
    simp only [takeStep, presentWord] at h
    split at h
    · exact change_exec h
    · cases h
      exact .refuse _
  | write issuer bytes =>
    refine ⟨issuer, ?_⟩
    simp only [takeStep, presentWrite] at h
    split at h
    · exact change_exec h
    · cases h
      exact .hold
  | hostIssue =>
    cases h
    exact ⟨s.actor, change_issueNext _ _⟩
  | hostRelease =>
    cases h
    refine ⟨s.actor, ?_⟩
    unfold hostRelease
    split_ifs with h1
    · exact .release h1.1 h1.2.1 h1.2.2.1 h1.2.2.2
    · exact .hold
  | bus r =>
    cases h
    refine ⟨s.actor, ?_⟩
    rcases busComplete_cases r s with ⟨_, e⟩ | ⟨o, b, hb, e⟩ <;> rw [e]
    · exact .hold
    · exact .complete o b r hb
  | surfWrite i b =>
    cases h
    exact ⟨s.actor, .surface _⟩
  | surfDims ws hs stride =>
    cases h
    exact ⟨s.actor, .surface _⟩
  | surfPut S =>
    cases h
    exact ⟨s.actor, .surface _⟩

/-- Every step of the machine makes one of the changes, after the model's own fields are set for it. -/
theorem change_step {s t : State} (h : step s = .next t) :
    ∃ c p d, Change { s with actor := c, pending := p, draws := d } t := by
  obtain ⟨c, hc⟩ := change_takeStep h
  unfold nextStep at hc
  split at hc
  · exact ⟨_, _, _, hc⟩
  · exact ⟨_, _, _, hc⟩

end Sys2Proof.Machine
end

