-- ==== Sys2Proof/Tests/Slice0.lean ====
section
/-! SUPPORT. The model's own tests.  Expected values are from spec/95_test_vectors.md or written out by hand from the
rule each test names.  The last part has, for each obligation with hypotheses, states and operands that meet them. -/

open Sys2Proof Sys2Proof.Machine

namespace Sys2Proof.Tests

/-! ## Well-formedness -/

/-- A data chunk write of fifteen bytes is refused (30_encoding.md R101). -/
theorem test_dataw_short_is_ill_formed : WellFormed (.dataw (List.replicate 15 0)) = false := by decide

/-- And one of seventeen. -/
theorem test_dataw_long_is_ill_formed : WellFormed (.dataw (List.replicate 17 0)) = false := by decide

theorem test_dataw_sixteen_is_well_formed : WellFormed (.dataw (List.replicate 16 0)) = true := by decide

/-! ## Decoding: one word for each constructor, from 95_test_vectors.md V-E and the tables of 30_encoding.md -/

theorem test_decode_tick : decodeTableWord 64 0x0000000000000001 = some .tick := by rfl
theorem test_decode_reqFlush : decodeTableWord 64 0x0000000000000002 = some .reqFlush := by rfl
theorem test_decode_pixelSet : decodeTableWord 64 0x0000000A00090003 = some (.pixelSet 9 10) := by rfl
theorem test_decode_pixelSet_negative : decodeTableWord 64 0x00000000FFFF0003 = some (.pixelSet (-1) 0) := by rfl
theorem test_decode_pixelClear : decodeTableWord 64 0x0000000A00090013 = some (.pixelClear 9 10) := by rfl
theorem test_decode_pixelToggle : decodeTableWord 64 0x0000000A00090023 = some (.pixelToggle 9 10) := by rfl
theorem test_decode_sync : decodeTableWord 64 0x0000000000000004 = some .sync := by rfl
theorem test_decode_flushStep : decodeTableWord 64 0x0000000000000005 = some .flushStep := by rfl
theorem test_decode_cmd : decodeTableWord 64 0x000000000000A606 = some (.cmd 0xA6) := by rfl
theorem test_decode_data : decodeTableWord 64 0x0000000000000B07 = some (.data 3 1) := by rfl
theorem test_decode_init : decodeTableWord 64 0x0000000000000008 = some .init := by rfl
theorem test_decode_contrastGet : decodeTableWord 64 0x0000000000000009 = some .contrastGet := by rfl
theorem test_decode_contrastSet : decodeTableWord 64 0x00000000012C000A = some (.contrastSet 300 false) := by rfl
theorem test_decode_contrastSet_negative :
    decodeTableWord 64 0x0000FFFFFFFF000A = some (.contrastSet (-1) false) := by rfl
theorem test_decode_contrastSet_nonnumeric : decodeTableWord 64 0x000000000000004A = some (.contrastSet 0 true) := by
  rfl
theorem test_decode_arm : decodeTableWord 64 0x000000000000000B = some .arm := by rfl
theorem test_decode_disarm : decodeTableWord 64 0x000000000000000C = some .disarm := by rfl
theorem test_decode_teardown : decodeTableWord 64 0x000000000000000D = some .teardown := by rfl
theorem test_decode_jobStart : decodeTableWord 64 0x000000000000000E = some .jobStart := by rfl
theorem test_decode_reservedOpc0 : decodeTableWord 64 0x0000000000000000 = some (.reservedOpc0 0) := by rfl
theorem test_decode_reservedOpcF : decodeTableWord 64 0x000000000000001F = some (.reservedOpcF 1) := by rfl
theorem test_decode_reservedPixelMode3 : decodeTableWord 64 0x0000000000000033 = some (.reservedPixelMode3 0) := by rfl
theorem test_decode_cmdw : decodeTableWord 16 0x0012 = some (.cmdw 0x12) := by rfl
theorem test_decode_dataw : decodeTableWord 8 0x40 = some (.dataw (List.replicate 16 0)) := by rfl
theorem test_decode_cbDisplayOff : decodeTableWord 16 0x00AE = some .cbDisplayOff := by rfl
theorem test_decode_cbClockDivide : decodeTableWord 16 0x00D5 = some .cbClockDivide := by rfl
theorem test_decode_cbMultiplex : decodeTableWord 16 0x00A8 = some .cbMultiplex := by rfl
theorem test_decode_cbDisplayOffset : decodeTableWord 16 0x00D3 = some .cbDisplayOffset := by rfl
theorem test_decode_cbStartLine : decodeTableWord 16 0x0040 = some .cbStartLine := by rfl
theorem test_decode_cbSegmentRemap : decodeTableWord 16 0x00A1 = some .cbSegmentRemap := by rfl
theorem test_decode_cbComScan : decodeTableWord 16 0x00C8 = some .cbComScan := by rfl
theorem test_decode_cbComPins : decodeTableWord 16 0x00DA = some .cbComPins := by rfl
theorem test_decode_cbInitContrast : decodeTableWord 16 0x0081 = some .cbInitContrast := by rfl
theorem test_decode_cbEntireDisplay : decodeTableWord 16 0x00A4 = some .cbEntireDisplay := by rfl
theorem test_decode_cbNormalPolarity : decodeTableWord 16 0x00A6 = some .cbNormalPolarity := by rfl
theorem test_decode_cbChargePump : decodeTableWord 16 0x008D = some .cbChargePump := by rfl
theorem test_decode_cbAddressingMode : decodeTableWord 16 0x0020 = some .cbAddressingMode := by rfl
theorem test_decode_cbDisplayOn : decodeTableWord 16 0x00AF = some .cbDisplayOn := by rfl
theorem test_decode_cbSelectPage_first : decodeTableWord 16 0x00B0 = some (.cbSelectPage 0) := by rfl
theorem test_decode_cbSelectPage_last : decodeTableWord 16 0x00B7 = some (.cbSelectPage 7) := by rfl
theorem test_decode_past_select_page : decodeTableWord 16 0x00B8 = some (.cmdw 0xB8) := by rfl
theorem test_decode_cbColumnLow : decodeTableWord 16 0x0000 = some .cbColumnLow := by rfl
theorem test_decode_cbColumnHigh : decodeTableWord 16 0x0010 = some .cbColumnHigh := by rfl
/-- `CB.SET_CONTRAST` is the same write as `CB.INIT_CONTRAST` (log 11), so it is shown by its encoding. -/
theorem test_encode_cbSetContrast : encode .cbSetContrast = .bytes [0x00, 0x81] := by rfl

/-! The words of V-E that the decoder refuses. -/

theorem test_refuse_reqFlush_bit8 : decodeWord 0x0000000000000102 = .error .reservedBits := by rfl
theorem test_refuse_data_bit14 : decodeWord 0x0000000000004007 = .error .reservedBits := by rfl
theorem test_refuse_contrastSet_bit7 : decodeWord 0x000000000000008A = .error .reservedBits := by rfl
theorem test_refuse_pixel_bit48 : decodeWord 0x0001000000000003 = .error .reservedBits := by rfl
theorem test_refuse_cmd_bit16 : decodeWord 0x0000000000010006 = .error .reservedBits := by rfl
theorem test_refuse_control_byte : decodeWrite [0x80, 0x00] = .error .notEmitted := by rfl
theorem test_refuse_two_command_bytes : decodeWrite [0x00, 0xD5, 0x80] = .error .notEmitted := by rfl

/-! ## One step -/

/-- The reset state with an empty surface in place of the free one. -/
def ready : State := { State.reset with surf := ⟨0, 0, 0, []⟩ }

/-- `ready` with the listed Device Bitmap bytes. -/
def holding (m : Memory) : State := { ready with db := some m }

/-- The same, acting as the WORKER with a job running. -/
def flushing (m : Memory) : State := { holding m with actor := .worker, gate := true, jobrun := true }

/-- One field of the answer, where it is a next state. -/
def got {α : Type} (a : Answer) (f : State → α) : Option α :=
  match a with
  | .next s => some (f s)
  | .fault _ | .refused _ => none

/-- A byte of the Device Bitmap. -/
def byteAt (i : Nat) (s : State) : Option Byte := s.db.map fun m => Memory.read m i

/-- V-D1. -/
theorem test_tick_admits :
    got (exec .tick { ready with actor := .timer, armed := true }) (fun s => (s.gate, s.jobq)) = some (true, true) := by
  decide

/-- R141: with `LINK = 0` a tick signals nothing. -/
theorem test_tick_without_link :
    got (exec .tick { ready with actor := .timer, armed := true, link := false }) (fun s => (s.gate, s.jobq)) =
      some (false, false) := by decide

/-- V-D2. -/
theorem test_reqFlush_admitted :
    got (exec .reqFlush ready) (fun s => (s.gate, s.jobq, s.hval)) = some (true, true, 1) := by decide

/-- V-D1: the second request is dropped. -/
theorem test_reqFlush_dropped :
    got (exec .reqFlush { ready with gate := true, jobrun := true }) (fun s => (s.gate, s.jobq, s.hres, s.hval)) =
      some (true, false, .resOk, 0) := by decide

/-- V-P. -/
theorem test_pixelSet : got (exec (.pixelSet 9 10) (holding [(137, 0x00)])) (byteAt 137) = some (some 0x04) := by decide

theorem test_pixelSet_last_bit :
    got (exec (.pixelSet 127 63) (holding [(1023, 0x00)])) (byteAt 1023) = some (some 0x80) := by decide

theorem test_pixelClear : got (exec (.pixelClear 9 10) (holding [(137, 0xFF)])) (byteAt 137) = some (some 0xFB) := by
  decide

theorem test_pixelClear_out_of_bounds :
    got (exec (.pixelClear (-1) 0) ready) (fun s => (s.log, s.hres)) = some ([.warnOob (-1) 0], .resOk) := by decide

theorem test_pixelToggle : got (exec (.pixelToggle 9 10) (holding [(137, 0x04)])) (byteAt 137) = some (some 0x00) := by
  decide

theorem test_pixelToggle_out_of_bounds :
    got (exec (.pixelToggle 0 64) ready) (fun s => (s.log, s.db)) = some ([.warnOob 0 64], some []) := by decide

/-- A surface of one column and eleven rows with pixel `(0, 10)` alone lit: page 0 is cleared, and of page 1 the three
rows it covers are written and the others kept (R188, R189). -/
theorem test_sync_packs :
    got (exec .sync { holding [(0, 0xFF), (128, 0xFF)] with surf := ⟨1, 11, 1, List.replicate 10 0 ++ [0x01]⟩ })
      (fun s => (byteAt 0 s, byteAt 128 s)) = some (some 0x00, some 0xFC) := by decide

/-- R189: a surface wider than the device warns in loop order (as V-S11), and a pixel it does not cover keeps its
value (as V-S12). -/
theorem test_sync_too_wide :
    got (exec .sync { holding [(128, 0x5A)] with surf := ⟨130, 1, 17, List.replicate 17 0⟩ })
      (fun s => (s.log, byteAt 128 s)) = some ([.warnOob 128 0, .warnOob 129 0], some 0x5A) := by decide

/-- V-F, write 38: chunk 1 of page 3. -/
theorem test_flushStep_page3_slot4 :
    got (exec .flushStep { flushing ((List.range 16).map fun j => (400 + j, BitVec.ofNat 8 (j + 1))) with
        fpage := 3, fslot := 4 }) (·.bus) =
      some (.busy .worker [0x40, 1, 2, 3, 4, 5, 6, 7, 8, 9, 10, 11, 12, 13, 14, 15, 16]) := by decide

/-- V-F, write 78. -/
theorem test_flushStep_page7 :
    got (exec .flushStep { flushing [] with fpage := 7 }) (·.bus) = some (.busy .worker [0x00, 0xB7]) := by decide

/-- V-H. -/
theorem test_cmd : got (exec (.cmd 0xA6) ready) (fun s => (s.hs, s.harg)) = some (.cmd, [0x00, 0xA6]) := by decide

theorem test_cmd_host_busy :
    got (exec (.cmd 0xA6) { ready with hs := .data }) (fun s => (s.refused, s.hs)) = some (true, .data) := by decide

/-- V-H: `DATA 3, 1` with `DB[400..415] = FF`. -/
theorem test_data :
    got (exec (.data 3 1) (holding ((List.range 16).map fun j => (400 + j, 0xFF)))) (fun s => (s.hs, s.harg)) =
      some (.data, 0x40 :: List.replicate 16 0xFF) := by decide

/-- V-I1 and V-I6, after a CMD: HARG is empty for INIT (R35). -/
theorem test_init : got (exec .init { ready with initok := true, harg := [0x00, 0xA6] })
    (fun s => (s.hs, s.hidx, s.harg, s.initok)) = some (.init, 0, [], false) := by decide

theorem test_init_while_armed :
    got (exec .init { ready with initok := true, armed := true }) (fun s => (s.hs, s.refused, s.reason)) =
      some (.idle, true, some .initWhileActive) := by decide

/-- V-C. -/
theorem test_contrastGet : got (exec .contrastGet ready) (fun s => (s.hres, s.hval)) = some (.resOk, 127) := by decide

theorem test_contrastSet_300 :
    got (exec (.contrastSet 300 false) ready) (fun s => (s.hres, s.contrast, s.refused)) =
      some (.eInval, 127, false) := by decide

theorem test_contrastSet_255 :
    got (exec (.contrastSet 255 false) ready) (fun s => (s.contrast, s.hs, s.harg)) =
      some (255, .contrast, [0xFF]) := by decide

/-- V-D5 and R150. -/
theorem test_arm_before_init :
    got (exec .arm ready) (fun s => (s.armed, s.hres, s.refused)) = some (false, .none, true) := by decide

theorem test_arm : got (exec .arm { ready with initok := true }) (fun s => (s.armed, s.hres)) =
    some (true, .resOk) := by decide

/-- V-D6. -/
theorem test_disarm : got (exec .disarm { ready with armed := true, jobrun := true })
    (fun s => (s.armed, s.jobrun, s.hres)) = some (false, true, .resOk) := by decide

/-- P6, step 2. -/
theorem test_teardown : got (exec .teardown { ready with armed := true, jobq := true })
    (fun s => (s.armed, s.hs, s.jobq, s.alive)) = some (false, .teardown, true, true) := by decide

/-- P6, step 180. -/
theorem test_release : got (takeStep .hostRelease { ready with hs := .teardown })
    (fun s => (s.alive, s.link, s.db.isSome, s.hs, s.hres)) = some (false, false, false, .idle, .resOk) := by decide

/-- R146, under either value of `GATE_RELEASE` (V-D3, V-D4). -/
theorem test_jobStart_onComplete : got (exec .jobStart { ready with actor := .worker, gate := true, jobq := true })
    (fun s => (s.gate, s.jobq, s.jobrun)) = some (true, false, true) := by decide

theorem test_jobStart_onStart :
    got (exec .jobStart { ready with actor := .worker, gate := true, jobq := true, gateRelease := .onStart })
      (fun s => (s.gate, s.jobq, s.jobrun)) = some (false, false, true) := by decide

/-- V-S17. -/
theorem test_jobStart_malformed :
    got (exec .jobStart { ready with
        actor := .worker, gate := true, jobq := true, surf := ⟨128, 64, 10, List.replicate 640 0⟩ })
      (fun s => (s.gate, s.jobq, s.jobrun, s.refused)) = some (true, true, false, true) := by decide

/-- V-E: the reserved words, from any agent. -/
theorem test_reservedOpc0 : got (exec (.reservedOpc0 0) ready) (fun s => (s.refused, s.reason, s.hres)) =
    some (true, some .reservedOpcode, .none) := by decide
theorem test_reservedOpcF : got (exec (.reservedOpcF 1) ready) (·.reason) = some (some .reservedOpcode) := by decide
theorem test_reservedPixelMode3 : got (exec (.reservedPixelMode3 0) ready) (·.reason) = some (some .reservedMode) := by
  decide

/-- V-E: the HOST may not issue TICK. -/
theorem test_tick_on_the_host_port : got (exec .tick { ready with armed := true }) (fun s => (s.reason, s.gate)) =
    some (some .wrongIssuer, false) := by decide

/-- R154, "by any agent": a TICK word of the HOST and a CMD word of the TIMER, neither listed for its presenter. -/
theorem test_after_release_any_agent :
    got (exec .tick { ready with alive := false, link := false, db := none }) (·.reason) = some (some .released) ∧
      got (exec (.cmd 0xA6) { ready with actor := .timer, alive := false, link := false, db := none }) (·.reason) =
        some (some .released) := by decide

/-- V-D10. -/
theorem test_after_release : got (exec (.pixelSet 0 0) { ready with alive := false, link := false, db := none })
    (fun s => (s.refused, s.reason)) = some (true, some .released) := by decide

/-- V-F: write 4 fails at (0, 3) (P4, step 10). -/
theorem test_worker_write_fails :
    got (takeStep (.bus .fail) { flushing [] with fslot := 3, bus := .busy .worker [0x40] })
      (fun s => (s.log, s.fres, s.gate, s.jobrun, s.fpage, s.fslot)) =
      some ([.flushErr 0 3], .eBus, false, false, 0, 3) := by decide

/-- R218: the last slot of a page but the last. -/
theorem test_worker_page_turns :
    got (takeStep (.bus .ok) { flushing [] with fpage := 2, fslot := 10, bus := .busy .worker [0x40] })
      (fun s => (s.fpage, s.fslot, s.jobrun)) = some (3, 0, true) := by decide

/-- P5, steps 8 and 12. -/
theorem test_contrast_first_write_done :
    got (takeStep (.bus .ok) { ready with hs := .contrast, harg := [64], bus := .busy .host [0x00, 0x81] })
      (fun s => (s.hs, s.hidx)) = some (.contrast, 1) := by decide

theorem test_contrast_second_write_fails :
    got (takeStep (.bus .fail) { ready with
        hs := .contrast, hidx := 1, contrast := 64, harg := [64], bus := .busy .host [0x00, 0x40] })
      (fun s => (s.hs, s.hidx, s.hres, s.contrast, s.log)) = some (.idle, 0, .eBus, 64, []) := by decide

/-- V-I4. -/
theorem test_init_last_write_fails :
    got (takeStep (.bus .fail) { ready with hs := .init, hidx := 20, bus := .busy .host [0x00, 0xAF] })
      (fun s => (s.initok, s.hres, s.hs)) = some (false, .eBus, .idle) := by decide

/-- V-D11: H.ISSUE is not enabled while the WORKER's write is outstanding. -/
theorem test_hostIssue_waits :
    got (takeStep .hostIssue { ready with hs := .cmd, harg := [0x00, 0xA6], bus := .busy .worker [0x00, 0xB0] })
      (·.trace) = some [] := by decide

/-! The bus rows: due at a sender, and not due. -/

/-- INIT at script index `n`. -/
def atScript (n : Nat) : State := { ready with hs := .init, hidx := BitVec.ofNat 5 n }

theorem test_cbDisplayOff : got (exec .cbDisplayOff (atScript 0)) (·.bus) = some (.busy .host [0x00, 0xAE]) := by decide
theorem test_cbDisplayOff_not_due : got (exec .cbDisplayOff (atScript 1)) (·.bus) = some .free := by decide
theorem test_cbClockDivide : got (exec .cbClockDivide (atScript 1)) (·.bus) = some (.busy .host [0x00, 0xD5]) := by decide
theorem test_cmdw_parameter : got (exec (.cmdw 0x80) (atScript 2)) (·.bus) = some (.busy .host [0x00, 0x80]) := by decide
theorem test_cbMultiplex : got (exec .cbMultiplex (atScript 3)) (·.bus) = some (.busy .host [0x00, 0xA8]) := by decide
theorem test_cbDisplayOffset : got (exec .cbDisplayOffset (atScript 5)) (·.bus) = some (.busy .host [0x00, 0xD3]) := by
  decide
theorem test_cbStartLine : got (exec .cbStartLine (atScript 7)) (·.bus) = some (.busy .host [0x00, 0x40]) := by decide
theorem test_cbSegmentRemap : got (exec .cbSegmentRemap (atScript 8)) (·.bus) = some (.busy .host [0x00, 0xA1]) := by
  decide
theorem test_cbComScan : got (exec .cbComScan (atScript 9)) (·.bus) = some (.busy .host [0x00, 0xC8]) := by decide
theorem test_cbComPins : got (exec .cbComPins (atScript 10)) (·.bus) = some (.busy .host [0x00, 0xDA]) := by decide
theorem test_cbInitContrast : got (exec .cbInitContrast (atScript 12)) (·.bus) = some (.busy .host [0x00, 0x81]) := by
  decide
theorem test_cbEntireDisplay : got (exec .cbEntireDisplay (atScript 14)) (·.bus) = some (.busy .host [0x00, 0xA4]) := by
  decide
theorem test_cbNormalPolarity : got (exec .cbNormalPolarity (atScript 15)) (·.bus) = some (.busy .host [0x00, 0xA6]) := by
  decide
theorem test_cbChargePump : got (exec .cbChargePump (atScript 16)) (·.bus) = some (.busy .host [0x00, 0x8D]) := by decide
theorem test_cbAddressingMode : got (exec .cbAddressingMode (atScript 18)) (·.bus) = some (.busy .host [0x00, 0x20]) := by
  decide
theorem test_cbDisplayOn : got (exec .cbDisplayOn (atScript 20)) (·.bus) = some (.busy .host [0x00, 0xAF]) := by decide
theorem test_cbSelectPage : got (exec (.cbSelectPage 5) { flushing [] with fpage := 5 }) (·.bus) =
    some (.busy .worker [0x00, 0xB5]) := by decide
theorem test_cbSelectPage_other_page : got (exec (.cbSelectPage 4) { flushing [] with fpage := 5 }) (·.bus) =
    some .free := by decide
theorem test_cbColumnLow : got (exec .cbColumnLow { flushing [] with fslot := 1 }) (·.bus) =
    some (.busy .worker [0x00, 0x00]) := by decide
theorem test_cbColumnHigh : got (exec .cbColumnHigh { flushing [] with fslot := 2 }) (·.bus) =
    some (.busy .worker [0x00, 0x10]) := by decide
theorem test_cbSetContrast : got (exec .cbSetContrast { ready with hs := .contrast, harg := [64] }) (·.bus) =
    some (.busy .host [0x00, 0x81]) := by decide
theorem test_dataw : got (exec (.dataw (List.replicate 16 0x02)) { ready with
      hs := .data, harg := 0x40 :: List.replicate 16 0x02 }) (·.bus) =
    some (.busy .host (0x40 :: List.replicate 16 0x02)) := by decide

/-- A placed word is the first instruction after reset: an operation of each context, and a bus row. -/
theorem test_place_init : got (step (State.reset.withFetchWord 64 0x8)) (fun s => (s.hs, s.refused)) =
    some (.init, false) := by decide
theorem test_place_tick : got (step (State.reset.withFetchWord 64 0x1)) (fun s => (s.actor, s.refused, s.gate)) =
    some (.timer, false, false) := by decide
theorem test_place_cbDisplayOn : got (step (State.reset.withFetchWord 16 0x00AF)) (·.bus) =
    some (.busy .host [0x00, 0xAF]) := by decide
theorem test_place_dataw : got (step (State.reset.withFetchWord 8 0x40)) (·.bus) =
    some (.busy .host (0x40 :: List.replicate 16 0)) := by decide

/-! ## The hypotheses of the obligations are met -/

/-- The HOST may present an operation in `ready`. -/
theorem test_hyp_HostReady : HostReady ready := ⟨rfl, rfl, rfl⟩

theorem test_hyp_HostDbReady (m : Memory) : HostDbReady (holding m) m := ⟨⟨rfl, rfl, rfl⟩, rfl, rfl, rfl⟩

/-- A flush at its first and at its last position. -/
theorem test_hyp_FlushReady_first : FlushReady (flushing []) [] := ⟨rfl, rfl, rfl, by decide, rfl⟩
theorem test_hyp_FlushReady_last : FlushReady { flushing [] with fpage := 7, fslot := 10 } [] :=
  ⟨rfl, rfl, rfl, by decide, rfl⟩

theorem test_hyp_EncodeThenDecode : WellFormed (.dataw (List.replicate 16 0xFF)) = true := by decide

theorem test_hyp_DecodedWordIsItsEncoding : decodeWord 0x0000003F007F0013 = .ok (.pixelClear 127 63) := by rfl

theorem test_hyp_DecodedWriteIsItsEncoding :
    decodeWrite [0x00, 0xB7] = .ok (.cbSelectPage 7) ∧
      decodeWrite (0x40 :: List.replicate 16 0) = .ok (.dataw (List.replicate 16 0)) := ⟨rfl, rfl⟩

theorem test_hyp_MasksSelectRows : KnownOpcode 0x102 ∧ decodeWord 0x102 = .error .reservedBits :=
  ⟨⟨by decide, by decide, by decide⟩, rfl⟩

theorem test_hyp_ReservedWordsAreRefused :
    field 0xFFFFFFFFFFFFFFF0 0 4 = 0x0 ∧ field 0x000000000000000F 0 4 = 0xF ∧
      field 0x0000000000000033 0 4 = 0x3 ∧ field 0x0000000000000033 4 2 = 3 := by decide

theorem test_hyp_StepRunsDecodedInstruction :
    ({ ready with pending := [.op .host 0x8] } : State).pending = .op .host 0x8 :: [] ∧
      decodeWord 0x8 = .ok .init ∧ decodeWord 0x18 = .error .reservedBits ∧
      ({ ready with pending := [.write .worker [0x00, 0x10]] } : State).pending = .write .worker [0x00, 0x10] :: [] ∧
      decodeWrite [0x00, 0x10] = .ok .cbColumnHigh ∧ ready.pending = [] := ⟨rfl, rfl, rfl, rfl, rfl, rfl⟩

theorem test_hyp_PlacedWordRunsNext :
    isBusWidth 64 = false ∧ decodeTableWord 64 0xE = some .jobStart ∧
      isBusWidth 16 = true ∧ decodeTableWord 16 0x00AE = some .cbDisplayOff ∧
      isBusWidth 8 = true ∧ decodeTableWord 8 0x40 = some (.dataw (List.replicate 16 0)) :=
  ⟨rfl, rfl, rfl, rfl, rfl, rfl⟩

/-- One state for each clause of `StepsNotEnabledHold`, in its order. -/
theorem test_hyp_StepsNotEnabledHold :
    (({ ready with actor := .timer } : State).actor = .timer ∧ ready.alive = true ∧ ready.armed = false) ∧
    (({ ready with actor := .worker } : State).actor = .worker ∧ ready.jobq = false) ∧
    ((flushing []).jobrun = true ∧ (flushing []).actor = .worker ∧ ready.jobrun = false) ∧
    (({ flushing [] with bus := .busy .worker [0x00, 0xB0] } : State).bus ≠ .free) ∧
    (ready.hs = .idle ∧ ({ ready with hs := .teardown } : State).hs = .teardown) ∧
    (ready.hs ≠ .teardown ∧ ({ ready with hs := .teardown, jobq := true } : State).jobq = true) ∧
    ready.bus = .free ∧
    (encode .cbDisplayOff = .bytes [0x00, 0xAE] ∧ senderOf ready.actor = some .host ∧
      nextWrite .host ready ≠ some [0x00, 0xAE]) :=
  ⟨⟨rfl, rfl, rfl⟩, ⟨rfl, rfl⟩, ⟨rfl, rfl, rfl⟩, by decide, ⟨rfl, rfl⟩, ⟨by decide, rfl⟩, rfl, rfl, rfl, by decide⟩

/-- The corners of the device, inside. -/
theorem test_hyp_PixelInBoundsWritesItsByte :
    HostDbReady (holding [(0, 0)]) [(0, 0)] ∧ inBounds (0 : BitVec 16).toInt (0 : BitVec 16).toInt = true ∧
      inBounds (127 : BitVec 16).toInt (63 : BitVec 16).toInt = true := ⟨test_hyp_HostDbReady _, by decide, by decide⟩

/-- And just outside. -/
theorem test_hyp_PixelOutOfBoundsWarns :
    HostDbReady (holding []) [] ∧ inBounds (128 : BitVec 16).toInt (0 : BitVec 16).toInt = false ∧
      inBounds (0 : BitVec 16).toInt (64 : BitVec 16).toInt = false ∧
      inBounds (-1 : BitVec 16).toInt (0 : BitVec 16).toInt = false :=
  ⟨test_hyp_HostDbReady _, by decide, by decide, by decide⟩

/-- Also a witness for `ConverterFrame`. -/
theorem test_hyp_PixelChangesOneBit :
    HostDbReady (holding [(1023, 0)]) [(1023, 0)] ∧
      (∃ t, exec (.pixelSet 127 63) (holding [(1023, 0)]) = .next t) ∧
      (∃ t, exec (.pixelClear 127 63) (holding [(1023, 0)]) = .next t) ∧
      ∃ t, exec (.pixelToggle 127 63) (holding [(1023, 0)]) = .next t :=
  ⟨test_hyp_HostDbReady _, ⟨_, rfl⟩, ⟨_, rfl⟩, ⟨_, rfl⟩⟩

theorem test_hyp_PixelLaws :
    inBounds 0 0 = true ∧ inBounds 127 63 = true ∧ ((0 : Int), (0 : Int)) ≠ (127, 63) ∧ inBounds 128 63 = false ∧
      inBounds 127 64 = false := by decide

/-- The contract of a surface whose `n` bytes are equal. -/
theorem surfaceOk_replicate (ws hs stride : Int) (n : Nat) (b : Byte) :
    surfaceOk ⟨ws, hs, stride, List.replicate n b⟩ =
      decide (0 ≤ ws ∧ 0 ≤ hs ∧ (ws + 7) / 8 ≤ stride ∧ stride * hs ≤ (n : Int)) := by
  rw [surfaceOk, List.length_replicate]

/-- The surface of this hardware, all zero (V-S1). -/
def zeroSurface : Surface := ⟨128, 64, 16, List.replicate 1024 0⟩

theorem zeroSurface_wellFormed : WellFormedSurface zeroSurface :=
  ⟨rfl, rfl, by rw [zeroSurface, surfaceOk_replicate]; decide⟩

theorem test_hyp_SyncPacksTheSurface :
    HostDbReady { ready with surf := zeroSurface } [] ∧ WellFormedSurface ({ ready with surf := zeroSurface } : State).surf :=
  ⟨⟨⟨rfl, rfl, rfl⟩, rfl, rfl, rfl⟩, zeroSurface_wellFormed⟩

/-- Also a witness for `ConverterFrame`. -/
theorem test_hyp_SyncRoundTrip :
    HostDbReady { ready with surf := zeroSurface } [] ∧ ∃ t, exec .sync { ready with surf := zeroSurface } = .next t :=
  ⟨⟨⟨rfl, rfl, rfl⟩, rfl, rfl, rfl⟩, _, rfl⟩

/-- The smallest surface (V-S14), one with no rows, and one wider and taller than the device. -/
theorem test_hyp_SyncOfOtherDimensions :
    HostDbReady ready [] ∧ surfaceOk ready.surf = true ∧ surfaceOk ⟨5, 0, 1, []⟩ = true ∧
      surfaceOk ⟨129, 65, 17, List.replicate 1105 0⟩ = true :=
  ⟨test_hyp_HostDbReady _, by decide, by decide, by rw [surfaceOk_replicate]; decide⟩

/-- V-S15, V-S16, and the boundary of each check. -/
theorem test_hyp_MalformedSurfaceIsRefused :
    HostDbReady { ready with surf := ⟨128, 64, 15, List.replicate 1024 0⟩ } [] ∧
      surfaceOk ⟨128, 64, 15, List.replicate 1024 0⟩ = false ∧
      surfaceOk ⟨128, 64, 16, List.replicate 1023 0⟩ = false ∧ surfaceOk ⟨-1, 0, 0, []⟩ = false ∧
      surfaceOk ⟨0, -1, 0, []⟩ = false ∧
      (({ ready with actor := .worker, jobq := true } : State).alive = true ∧
        ({ ready with actor := .worker, jobq := true } : State).jobrun = false ∧
        ({ ready with actor := .worker, jobq := true } : State).db = some []) :=
  ⟨⟨⟨rfl, rfl, rfl⟩, rfl, rfl, rfl⟩, by rw [surfaceOk_replicate]; decide,
    by rw [surfaceOk_replicate]; decide, by decide, by decide, rfl, rfl, rfl⟩

theorem test_hyp_TickRequestsAFlush :
    ({ ready with actor := .timer, armed := true } : State).actor = .timer ∧
      ({ ready with actor := .timer, armed := true } : State).armed = true ∧
      ({ ready with actor := .timer, armed := true } : State).alive = true := ⟨rfl, rfl, rfl⟩

theorem test_hyp_ReqFlushTestsAndSets :
    HostReady ready ∧ ready.gate = false ∧ HostReady { ready with gate := true } :=
  ⟨test_hyp_HostReady, rfl, rfl, rfl, rfl⟩

theorem test_hyp_ManyRequestsAdmitOneJob :
    HostReady { ready with pending := [.op .host 0x2, .op .host 0x2] } ∧
      ({ ready with pending := [.op .host 0x2, .op .host 0x2] } : State).pending =
        List.replicate (1 + 1) (.op .host 0x2) ++ [] := ⟨⟨rfl, rfl, rfl⟩, rfl⟩

theorem test_hyp_JobStartSyncsAndStarts :
    let s : State := { ready with actor := .worker, jobq := true, gate := true, surf := zeroSurface }
    s.actor = .worker ∧ s.jobq = true ∧ s.jobrun = false ∧ s.alive = true ∧ s.db = some [] ∧ surfaceOk s.surf = true :=
  ⟨rfl, rfl, rfl, rfl, rfl, zeroSurface_wellFormed.2.2⟩

theorem test_hyp_ArmAndDisarm : HostReady { ready with initok := true } ∧ HostReady { ready with armed := true } :=
  ⟨⟨rfl, rfl, rfl⟩, rfl, rfl, rfl⟩

theorem test_hyp_TeardownThenRelease :
    HostReady ready ∧ ({ ready with hs := .teardown } : State).hs = .teardown ∧ ready.jobq = false ∧
      ready.jobrun = false ∧ ready.bus = .free := ⟨test_hyp_HostReady, rfl, rfl, rfl, rfl⟩

theorem test_hyp_OrderingRefusals :
    HostReady ready ∧ ready.initok = false ∧ HostReady { ready with armed := true } ∧
      HostReady { ready with jobq := true } ∧ HostReady { ready with jobrun := true } :=
  ⟨test_hyp_HostReady, rfl, ⟨rfl, rfl, rfl⟩, ⟨rfl, rfl, rfl⟩, rfl, rfl, rfl⟩

/-- A wrong context, a released block under each context, a busy host, and the TIMER at a bus row before and after
release. -/
theorem test_hyp_ContextRefusals :
    (ready.alive = true ∧ ({ ready with actor := .timer } : State).actor ≠ .host ∧
      ({ ready with actor := .worker } : State).actor ≠ .timer ∧ ready.actor ≠ .worker) ∧
    (∀ a, ({ ready with actor := a, alive := false } : State).actor = a ∧
      ({ ready with actor := a, alive := false } : State).alive = false) ∧
    (({ ready with hs := .init } : State).alive = true ∧ ({ ready with hs := .init } : State).hs ≠ .idle) ∧
    (encode .cbColumnLow = .bytes [0x00, 0x00] ∧ ({ ready with actor := .timer } : State).actor = .timer ∧
      ({ ready with actor := .timer } : State).alive = true) :=
  ⟨⟨rfl, by decide, by decide, by decide⟩, fun _ => ⟨rfl, rfl⟩, ⟨rfl, by decide⟩, rfl, rfl, rfl⟩

theorem test_hyp_FlushStepIssuesItsSlot : (flushing []).actor = .worker ∧ FlushReady (flushing []) [] :=
  ⟨rfl, test_hyp_FlushReady_first⟩

/-- A worker write at a slot before the last, at the last of a page, and at the last of the flush. -/
theorem test_hyp_WorkerWriteContinues :
    ({ flushing [] with bus := .busy .worker [0x00, 0xB0] } : State).bus = .busy .worker [0x00, 0xB0] ∧
      (flushing []).fslot.toNat < 10 ∧ ¬ (10 : BitVec 4).toNat < 10 ∧ (6 : BitVec 3).toNat < 7 ∧
      ¬ (7 : BitVec 3).toNat < 7 := ⟨rfl, by decide, by decide, by decide, by decide⟩

theorem test_hyp_FlushIssues88Writes :
    let s : State := { flushing [] with pending := flushAll 88 ++ [] }
    FlushReady s [] ∧ s.fpage = 0 ∧ s.fslot = 0 ∧ s.pending = flushAll 88 ++ [] :=
  ⟨⟨rfl, rfl, rfl, by decide, rfl⟩, rfl, rfl, rfl⟩

/-- Failing at the first write, and at the last. -/
theorem test_hyp_FailedFlushStopsAtItsWrite :
    let s : State := { flushing [] with pending := flushAll 0 ++ [.op .worker 0x5, .bus .fail] }
    FlushReady s [] ∧ s.fpage = 0 ∧ s.fslot = 0 ∧ (flushWrites [])[0]? = some [0x00, 0xB0] ∧
      (flushWrites [])[87]? = some (dataWrite [] 7 7) ∧
      s.pending = flushAll 0 ++ .op .worker 0x5 :: .bus .fail :: [] :=
  ⟨⟨rfl, rfl, rfl, by decide, rfl⟩, rfl, rfl, rfl, rfl, rfl⟩

theorem test_hyp_CmdAndDataTakeTheirBytes : HostReady (holding []) ∧ (holding []).db = some [] :=
  ⟨⟨rfl, rfl, rfl⟩, rfl⟩

theorem test_hyp_HostIssueSendsItsWrite :
    ready.bus = .free ∧ ({ ready with hs := .cmd } : State).hs = .cmd ∧ (atScript 20).hs = .init ∧
      script[(atScript 20).hidx.toNat]? = some 0xAF ∧
      ({ ready with hs := .contrast, hidx := 1, harg := [64] } : State).hidx ≠ 0 := ⟨rfl, rfl, rfl, rfl, by decide⟩

theorem test_hyp_SingleHostWriteEnds :
    let s : State := { ready with hs := .data, bus := .busy .host (0x40 :: List.replicate 16 0) }
    s.bus = .busy .host (0x40 :: List.replicate 16 0) ∧ s.hs = .data := ⟨rfl, rfl⟩

/-- A command write due at the HOST and at the WORKER, and a data chunk write due at each. -/
theorem test_hyp_BusRowsIssueTheirWrite :
    SenderReady .host [0x00, 0xA6] { ready with hs := .cmd, harg := [0x00, 0xA6] } ∧
      SenderReady .worker [0x00, 0xB7] { flushing [] with fpage := 7 } ∧
      SenderReady .host (0x40 :: List.replicate 16 0) { ready with hs := .data, harg := 0x40 :: List.replicate 16 0 } ∧
      SenderReady .worker (dataWrite [] 0 0) { flushing [] with fslot := 3 } :=
  ⟨⟨rfl, rfl, rfl⟩, ⟨rfl, rfl, rfl⟩, ⟨rfl, rfl, rfl⟩, rfl, rfl, rfl⟩

/-- The first and the last script byte. -/
theorem test_hyp_ScriptRowsAreInitWrites :
    ((atScript 0).actor = .host ∧ (atScript 0).hs = .init ∧ (atScript 0).bus = .free ∧ (atScript 0).hidx = BitVec.ofNat 5 0) ∧
    ((atScript 20).actor = .host ∧ (atScript 20).hs = .init ∧ (atScript 20).bus = .free ∧
      (atScript 20).hidx = BitVec.ofNat 5 20) := ⟨⟨rfl, rfl, rfl, rfl⟩, rfl, rfl, rfl, rfl⟩

theorem test_hyp_FlushAndContrastRowsIssue :
    ((flushing []).actor = .worker ∧ FlushReady (flushing []) [] ∧ (flushing []).fslot = 0) ∧
    FlushReady { flushing [] with fslot := 1 } [] ∧ FlushReady { flushing [] with fslot := 2 } [] ∧
    (let s : State := { ready with hs := .contrast, harg := [64] }
     s.actor = .host ∧ s.hs = .contrast ∧ s.hidx = 0 ∧ s.harg = [64] ∧ s.bus = .free) :=
  ⟨⟨rfl, test_hyp_FlushReady_first, rfl⟩, ⟨rfl, rfl, rfl, by decide, rfl⟩, ⟨rfl, rfl, rfl, by decide, rfl⟩,
    rfl, rfl, rfl, rfl, rfl⟩

theorem test_hyp_InitStartsItsScript :
    HostReady ready ∧ ready.armed = false ∧ ready.jobq = false ∧ ready.jobrun = false :=
  ⟨test_hyp_HostReady, rfl, rfl, rfl⟩

/-- A write of INIT before the last, and the last. -/
theorem test_hyp_InitWriteContinues :
    let s (n : Nat) : State := { atScript n with bus := .busy .host [0x00, 0x02] }
    (s 19).bus = .busy .host [0x00, 0x02] ∧ (s 19).hs = .init ∧ (s 19).hidx.toNat < 20 ∧ ¬ (s 20).hidx.toNat < 20 :=
  ⟨rfl, rfl, by decide, by decide⟩

theorem test_hyp_InitIssues21Writes :
    let s : State := { ready with pending := .op .host 0x8 :: hostWrites 21 ++ [] }
    HostReady s ∧ s.armed = false ∧ s.jobq = false ∧ s.jobrun = false ∧ s.bus = .free ∧
      s.pending = .op .host 0x8 :: hostWrites 21 ++ [] := ⟨⟨rfl, rfl, rfl⟩, rfl, rfl, rfl, rfl, rfl⟩

/-- Failing at the first write, and at the last. -/
theorem test_hyp_FailedInitStopsAtItsWrite :
    let s : State := { ready with pending := .op .host 0x8 :: hostWrites 0 ++ [.hostIssue, .bus .fail] }
    HostReady s ∧ s.armed = false ∧ s.jobq = false ∧ s.jobrun = false ∧ s.bus = .free ∧
      initWrites[0]? = some [0x00, 0xAE] ∧ initWrites[20]? = some [0x00, 0xAF] ∧
      s.pending = .op .host 0x8 :: hostWrites 0 ++ .hostIssue :: .bus .fail :: [] :=
  ⟨⟨rfl, rfl, rfl⟩, rfl, rfl, rfl, rfl, rfl, rfl, rfl⟩

/-- Just outside the range, at its ends, and non-numeric. -/
theorem test_hyp_ContrastSetValidates :
    HostReady ready ∧ (-1 : BitVec 32).toInt < 0 ∧ 255 < (256 : BitVec 32).toInt ∧
      (0 : BitVec 32).toInt = ((0 : Byte).toNat : Int) ∧ (255 : BitVec 32).toInt = ((255 : Byte).toNat : Int) :=
  ⟨test_hyp_HostReady, by decide, by decide, by decide, by decide⟩

theorem test_hyp_ContrastPairGoesOut :
    let s (steps : List AgentStep) : State := { ready with hs := .contrast, harg := [64], pending := steps }
    (∀ steps, (s steps).hs = .contrast ∧ (s steps).hidx = 0 ∧ (s steps).harg = [64] ∧ (s steps).bus = .free ∧
      (s steps).pending = steps) := fun _ => ⟨rfl, rfl, rfl, rfl, rfl⟩

/-- The first write and the second. -/
theorem test_hyp_ContrastWriteContinues :
    let s (i : BitVec 5) : State := { ready with hs := .contrast, hidx := i, bus := .busy .host [0x00, 0x81] }
    (s 0).bus = .busy .host [0x00, 0x81] ∧ (s 0).hs = .contrast ∧ (s 0).hidx = 0 ∧ (s 1).hidx ≠ 0 :=
  ⟨rfl, rfl, rfl, by decide⟩

theorem test_hyp_ControlFrame :
    (∃ t, exec .tick { ready with actor := .timer, armed := true } = .next t) ∧ (∃ t, exec .reqFlush ready = .next t) ∧
      (∃ t, exec .arm { ready with initok := true } = .next t) ∧ (∃ t, exec .disarm ready = .next t) ∧
      (∃ t, exec .teardown ready = .next t) ∧ ∃ t, exec .contrastGet ready = .next t :=
  ⟨⟨_, rfl⟩, ⟨_, rfl⟩, ⟨_, rfl⟩, ⟨_, rfl⟩, ⟨_, rfl⟩, _, rfl⟩

theorem test_hyp_ConverterFrame_jobStart :
    (∃ t, exec .jobStart { ready with actor := .worker, jobq := true } = .next t) ∧
      ({ ready with actor := .worker, jobq := true } : State).db = some [] ∧ ready.surf.ws ≤ ((0 : Nat) : Int) :=
  ⟨⟨_, rfl⟩, rfl, by decide⟩

theorem test_hyp_SenderFrame :
    (∃ t, exec .flushStep (flushing []) = .next t) ∧ (∃ t, exec .cbDisplayOff (atScript 0) = .next t) ∧
      (∃ t, exec (.cmd 0xA6) ready = .next t) ∧ (∃ t, exec (.data 7 7) ready = .next t) ∧
      (∃ t, exec .init ready = .next t) ∧ ∃ t, exec (.contrastSet 64 false) ready = .next t :=
  ⟨⟨_, rfl⟩, ⟨_, rfl⟩, ⟨_, rfl⟩, ⟨_, rfl⟩, ⟨_, rfl⟩, _, rfl⟩

/-- A flush in progress, its first write outstanding and about to complete. -/
def streaming : State :=
  { flushing [] with
    initok := true, armed := true, bus := .busy .worker [0x00, 0xB0], trace := [.issue .worker [0x00, 0xB0]]
    pending := [.bus .ok] }

theorem test_hyp_TokenInvariantKept : TokenInv streaming ∧ ∃ t, step streaming = .next t := by
  refine ⟨⟨fun _ => by decide, fun h => ?_, fun h => ?_⟩, _, rfl⟩
  · cases h
  · cases h

theorem test_hyp_OnlyTwoFormatsEmitted : FormatInv streaming ∧ ∃ t, step streaming = .next t := by
  refine ⟨⟨fun o bytes h => ?_, fun h => ?_⟩, _, rfl⟩
  · simp only [streaming, List.mem_singleton, TxEvent.issue.injEq] at h
    exact .inl ⟨0xB0, h.2⟩
  · rcases h with h | h <;> cases h

theorem test_hyp_GoodStatesStayGood : Good streaming ∧ ∃ t, step streaming = .next t := by
  refine ⟨⟨test_hyp_TokenInvariantKept.1, Nat.zero_le _, ?_, test_hyp_OnlyTwoFormatsEmitted.1, rfl, ?_, rfl,
    fun _ => rfl, ⟨rfl, rfl⟩⟩, _, rfl⟩
  · intro m h
    cases h
    exact ⟨List.Pairwise.nil, by simp⟩
  · intro o bytes h
    cases h
    rfl

theorem test_hyp_RefusedIsSticky :
    takeStep (.bus .ok) { ready with refused := true } = .next { ready with refused := true } ∧
      ({ ready with refused := true } : State).refused = true := ⟨rfl, rfl⟩

theorem test_hyp_ReleasedBlockOnlyRefuses :
    let s : State := { ready with alive := false, link := false, db := none }
    ReleaseInv s ∧ s.alive = false ∧ ∃ t, takeStep (.op .host 0x9) s = .next t :=
  ⟨⟨rfl, rfl, rfl, rfl, rfl, rfl, rfl⟩, rfl, _, rfl⟩

theorem test_hyp_RunningFlushKeepsTheBitmap :
    (flushing []).jobrun = true ∧ ∃ t, takeStep (.op .host 0x4) (flushing []) = .next t := ⟨rfl, _, rfl⟩

theorem test_hyp_OnlyACompletionFreesTheBus :
    streaming.bus = .busy .worker [0x00, 0xB0] ∧ (∀ r, AgentStep.hostIssue ≠ .bus r) ∧
      (∃ t, takeStep .hostIssue streaming = .next t) ∧ TokenInv streaming ∧ streaming.gateRelease = .onComplete :=
  ⟨rfl, (by intro r h; cases h), ⟨_, rfl⟩, test_hyp_TokenInvariantKept.1, rfl⟩

theorem test_hyp_OutputsAreNeverRead :
    ∃ t, takeStep (.bus .ok) { streaming with trace := [], log := [] } = .next t := ⟨_, rfl⟩

theorem test_hyp_ContrastIgnoresTheBitmap :
    (∃ t, exec .contrastGet ready = .next t) ∧ ∃ t, exec (.contrastSet 255 false) ready = .next t :=
  ⟨⟨_, rfl⟩, _, rfl⟩

theorem test_hyp_OnlyContrastSetWritesContrast :
    ∃ t, takeStep (.op .host 0x0000000000FF000A) ready = .next t ∧ t.contrast = 255 := ⟨_, rfl, rfl⟩

end Sys2Proof.Tests
end

section
/-! The token invariant (10_state.md R26).  Of the changes a step makes, an issue, a completion (which can end the job),
an admission and the start of a job write what `TokenInv` reads.  Each has its lemma; `tokenInv_change` cites them along
`Change`. -/

namespace Sys2Proof.Machine

/-! The continuations of a completed write. -/

/-- The WORKER's position moves to the next slot or the next page; after the last write, and after a failed one, the job
ends (43_protocol_encoder.md R218, R219). -/
theorem workerContinue_cases (r : BusResult) (s : State) :
    (r = .ok ∧ s.fslot.toNat < 10 ∧ workerContinue r s = { s with fslot := s.fslot + 1 }) ∨
    (r = .ok ∧ 10 ≤ s.fslot.toNat ∧ s.fpage.toNat < 7 ∧
      workerContinue r s = { s with fpage := s.fpage + 1, fslot := 0 }) ∨
    (r = .ok ∧ 10 ≤ s.fslot.toNat ∧ 7 ≤ s.fpage.toNat ∧ workerContinue r s = jobEnd .resOk s) ∨
    (r = .fail ∧ workerContinue r s = jobEnd .eBus { s with log := s.log ++ [.flushErr s.fpage s.fslot] }) := by
  cases r with
  | fail => exact .inr (.inr (.inr ⟨rfl, rfl⟩))
  | ok =>
    unfold workerContinue
    split_ifs with hslot hpage
    · exact .inl ⟨rfl, hslot, rfl⟩
    · exact .inr (.inl ⟨rfl, not_lt.1 hslot, hpage, rfl⟩)
    · exact .inr (.inr (.inl ⟨rfl, not_lt.1 hslot, not_lt.1 hpage, rfl⟩))

/-- The HOST's continuation writes INITOK, its sequencer and its result, and nothing else
(43_protocol_encoder.md R225, 44_init_contrast.md R244, R245, R251, R252). -/
theorem hostContinue_frame (r : BusResult) (s : State) :
    hostContinue r s =
      { s with
        initok := (hostContinue r s).initok, hs := (hostContinue r s).hs, hidx := (hostContinue r s).hidx
        hres := (hostContinue r s).hres, hval := (hostContinue r s).hval } := by
  unfold hostContinue
  cases s.hs with
  | idle | cmd | data | teardown => rfl
  | init =>
    cases r with
    | fail => rfl
    | ok => simp only [initContinue]; split <;> rfl
  | contrast =>
    cases r with
    | fail => rfl
    | ok => simp only [contrastContinue]; split <;> rfl

/-- The WORKER has a next write only while a job runs (43_protocol_encoder.md R217). -/
theorem jobrun_of_workerNextWrite {s : State} {bytes : List Byte} (h : workerNextWrite s = some bytes) :
    s.jobrun = true := by
  by_contra hrun
  simp [workerNextWrite, hrun] at h

/-! What keeps the token invariant. -/

theorem TokenInv.jobrun_of_busy {s : State} {bytes : List Byte} (h : TokenInv s) (hb : s.bus = .busy .worker bytes) :
    s.jobrun = true := by
  obtain ⟨-, -, hbus⟩ := h
  by_contra hrun
  exact hbus (by simpa using hrun) bytes hb

theorem tokenInv_busIssue {s : State} {o : Owner} {bytes : List Byte} (h : TokenInv s)
    (due : nextWrite o s = some bytes) : TokenInv (busIssue o bytes s) := by
  obtain ⟨hcomplete, hstart, -⟩ := h
  refine ⟨hcomplete, hstart, fun hrun b hb => ?_⟩
  cases o with
  | host => cases hb
  | worker => exact absurd (jobrun_of_workerNextWrite due) (by simpa using hrun)

theorem tokenInv_freeBus {s : State} (h : TokenInv s) (tr : List TxEvent) :
    TokenInv { s with bus := .free, trace := tr } := by
  obtain ⟨hcomplete, hstart, -⟩ := h
  exact ⟨hcomplete, hstart, fun _ _ => Bus.noConfusion⟩

/-- Job end (41_scheduler_dispatcher.md R147): under `ON_COMPLETE` no other job is queued while this one runs, so the
released token tells the jobs again. -/
theorem tokenInv_jobEnd {s : State} (h : TokenInv s) (r : FlushResult) (run : s.jobrun = true) (free : s.bus = .free) :
    TokenInv (jobEnd r s) := by
  obtain ⟨hcomplete, hstart, -⟩ := h
  refine ⟨fun hg => ?_, fun hg => ?_, fun _ b hb => ?_⟩
  · have hg : s.gateRelease = .onComplete := hg
    have hq : s.jobq = false := by simpa [run] using (hcomplete hg).2
    simp [gateAtEnd, hg, hq]
  · have hg : s.gateRelease = .onStart := hg
    simpa [gateAtEnd, hg] using hstart hg
  · simp [free] at hb

theorem tokenInv_workerContinue {s : State} (h : TokenInv s) (r : BusResult) (run : s.jobrun = true)
    (free : s.bus = .free) : TokenInv (workerContinue r s) := by
  rcases workerContinue_cases r s with ⟨-, -, e⟩ | ⟨-, -, -, e⟩ | ⟨-, -, -, e⟩ | ⟨-, e⟩ <;> rw [e]
  · exact h
  · exact h
  · exact tokenInv_jobEnd h _ run free
  · exact tokenInv_jobEnd (s := { s with log := s.log ++ [.flushErr s.fpage s.fslot] }) h .eBus run free

theorem tokenInv_hostContinue {s : State} (h : TokenInv s) (r : BusResult) : TokenInv (hostContinue r s) := by
  rw [hostContinue_frame]
  exact h

/-- A completion: a worker write was outstanding, so a job runs when the WORKER continues. -/
theorem tokenInv_complete {s : State} {o : Owner} {bytes : List Byte} (h : TokenInv s) (r : BusResult)
    (busy : s.bus = .busy o bytes) (tr : List TxEvent) :
    TokenInv (ownerContinue o r { s with bus := .free, trace := tr }) := by
  cases o with
  | worker => exact tokenInv_workerContinue (tokenInv_freeBus h tr) r (h.jobrun_of_busy busy) rfl
  | host => exact tokenInv_hostContinue (tokenInv_freeBus h tr) r

/-- Admission (41_scheduler_dispatcher.md R143): a request that finds the token set is dropped; under `ON_COMPLETE` a free
token means that no job is queued or running, so the new job is the only one. -/
theorem tokenInv_admitJob {s : State} (h : TokenInv s) : TokenInv (admitJob s) := by
  unfold admitJob
  split_ifs with hgate
  · exact h
  · obtain ⟨hcomplete, -, hbus⟩ := h
    refine ⟨fun hg => ?_, fun _ => rfl, hbus⟩
    obtain ⟨htoken, -⟩ := hcomplete hg
    have hnone : s.jobq = false ∧ s.jobrun = false := by simpa [hgate] using htoken
    simp [hnone]

/-- The start of a job (41_scheduler_dispatcher.md R146): under `ON_COMPLETE` the token was set for the queued job and
stays set, under `ON_START` it is released as the queue empties. -/
theorem tokenInv_jobStart {s : State} (h : TokenInv s) (queued : s.jobq = true) (db : Option Memory)
    (log : List LogEvent) (page : BitVec 3) (slot : BitVec 4) :
    TokenInv { s with
      jobq := false, jobrun := true, gate := gateAtStart s, db := db, log := log, fpage := page, fslot := slot } := by
  obtain ⟨hcomplete, -, -⟩ := h
  refine ⟨fun hg => ?_, fun hg => ?_, Bool.noConfusion⟩
  · have hg : s.gateRelease = .onComplete := hg
    have hgate : s.gate = true := by simpa [queued] using (hcomplete hg).1
    simp [gateAtStart, hg, hgate]
  · have hg : s.gateRelease = .onStart := hg
    simp [gateAtStart, hg]

/-- Every change keeps the token invariant; those that end with `exact h` write none of the fields it reads. -/
theorem tokenInv_change {s t : State} (c : Change s t) (h : TokenInv s) : TokenInv t := by
  cases c with
  | issue o bytes free due => exact tokenInv_busIssue h due
  | complete o bytes r busy => exact tokenInv_complete h r busy _
  | tick => exact tokenInv_admitJob h
  | reqFlush => exact tokenInv_admitJob h
  | jobStart alive jobq => exact tokenInv_jobStart h jobq _ _ _ _
  | hold | refuse | raster | cmd | data | init | result | contrast | arm | disarm | teardown | release | surface =>
    exact h

/-- Settles O51: a step makes one of the changes of `Change`, and each keeps the token invariant. -/
theorem tokenInvariantKept : Obligations.TokenInvariantKept := by
  intro s t h hstep
  obtain ⟨_, _, _, hc⟩ := change_step hstep
  exact tokenInv_change hc h

end Sys2Proof.Machine
end

section
/-! The two write formats (30_encoding.md R101). -/

namespace Sys2Proof.Machine

theorem emitted_commandWrite (c : Byte) : Emitted (commandWrite c) := .inl ⟨c, rfl⟩

theorem emitted_dataWrite (m : Memory) (p k : Nat) : Emitted (dataWrite m p k) :=
  .inr ⟨_, rfl, by simp [Config.chunk]⟩

theorem emitted_slotBytes {m : Memory} {p : BitVec 3} {s : BitVec 4} {bytes : List Byte}
    (h : slotBytes m p s = some bytes) : Emitted bytes := by
  unfold slotBytes at h
  split at h
  · cases h; exact emitted_commandWrite _
  · cases h; exact emitted_commandWrite _
  · cases h; exact emitted_commandWrite _
  · split_ifs at h
    cases h
    exact emitted_dataWrite _ _ _

theorem emitted_workerNextWrite {s : State} {bytes : List Byte} (h : workerNextWrite s = some bytes) :
    Emitted bytes := by
  unfold workerNextWrite at h
  split_ifs at h
  obtain ⟨m, -, hslot⟩ := Option.bind_eq_some_iff.1 h
  exact emitted_slotBytes hslot

/-- CMD and DATA send `HARG` as it stands, INIT and CONTRAST_SET command writes (43_protocol_encoder.md R224). -/
theorem emitted_hostNextWrite {s : State} {bytes : List Byte} (h : hostNextWrite s = some bytes)
    (sending : s.hs = .cmd ∨ s.hs = .data → Emitted s.harg) : Emitted bytes := by
  unfold hostNextWrite at h
  cases hs : s.hs <;> simp only [hs, reduceCtorEq] at h
  case cmd => cases h; exact sending (.inl hs)
  case data => cases h; exact sending (.inr hs)
  case init =>
    obtain ⟨c, -, rfl⟩ := Option.map_eq_some_iff.1 h
    exact emitted_commandWrite c
  case contrast =>
    split_ifs at h
    · cases h; exact emitted_commandWrite _
    · obtain ⟨c, -, rfl⟩ := Option.map_eq_some_iff.1 h
      exact emitted_commandWrite c

theorem FormatInv.emitted_nextWrite {s : State} {o : Owner} {bytes : List Byte} (h : FormatInv s)
    (due : nextWrite o s = some bytes) : Emitted bytes := by
  cases o with
  | worker => exact emitted_workerNextWrite due
  | host => exact emitted_hostNextWrite due h.2

/-- The HOST's continuation starts no sequence: it stays in its own or returns to idle (60_exceptions.md R277). -/
theorem hostContinue_hs (r : BusResult) (s : State) :
    (hostContinue r s).hs = s.hs ∨ (hostContinue r s).hs = .idle := by
  unfold hostContinue
  cases hs : s.hs with
  | idle | teardown => exact .inl hs
  | cmd | data => exact .inr rfl
  | init =>
    cases r with
    | fail => exact .inr rfl
    | ok =>
      simp only [initContinue]
      split_ifs
      · exact .inl hs
      · exact .inr rfl
  | contrast =>
    cases r with
    | fail => exact .inr rfl
    | ok =>
      simp only [contrastContinue]
      split_ifs
      · exact .inl hs
      · exact .inr rfl

theorem formatInv_busIssue {s : State} {o : Owner} {bytes : List Byte} (h : FormatInv s)
    (due : nextWrite o s = some bytes) : FormatInv (busIssue o bytes s) := by
  obtain ⟨htrace, hsending⟩ := h
  refine ⟨fun o' b hb => ?_, hsending⟩
  rcases List.mem_append.1 hb with hb | hb
  · exact htrace o' b hb
  · cases List.mem_singleton.1 hb
    exact FormatInv.emitted_nextWrite ⟨htrace, hsending⟩ due

theorem formatInv_freeBus {s : State} (h : FormatInv s) (o : Owner) (r : BusResult) :
    FormatInv { s with bus := .free, trace := s.trace ++ [.done o r] } := by
  obtain ⟨htrace, hsending⟩ := h
  exact ⟨fun o' b hb => htrace o' b (by simpa using hb), hsending⟩

theorem formatInv_workerContinue {s : State} (h : FormatInv s) (r : BusResult) : FormatInv (workerContinue r s) := by
  rcases workerContinue_cases r s with ⟨-, -, e⟩ | ⟨-, -, -, e⟩ | ⟨-, -, -, e⟩ | ⟨-, e⟩ <;> rw [e] <;> exact h

theorem formatInv_hostContinue {s : State} (h : FormatInv s) (r : BusResult) : FormatInv (hostContinue r s) := by
  obtain ⟨htrace, hsending⟩ := h
  rw [hostContinue_frame]
  refine ⟨htrace, fun hhs => ?_⟩
  rcases hostContinue_hs r s with e | e <;> rw [e] at hhs
  · exact hsending hhs
  · simp at hhs

theorem formatInv_ownerContinue {s : State} (h : FormatInv s) (o : Owner) (r : BusResult) :
    FormatInv (ownerContinue o r s) := by
  cases o with
  | worker => exact formatInv_workerContinue h r
  | host => exact formatInv_hostContinue h r

theorem formatInv_admitJob {s : State} (h : FormatInv s) : FormatInv (admitJob s) := by
  unfold admitJob
  split_ifs <;> exact h

/-- Every change keeps the two formats: an issue adds a write that is due, a completion adds no write, CMD and DATA take
a write of one of the formats, and the other changes add no write and start neither. -/
theorem formatInv_change {s t : State} (c : Change s t) (h : FormatInv s) : FormatInv t := by
  cases c with
  | issue o bytes free due => exact formatInv_busIssue h due
  | complete o bytes r busy => exact formatInv_ownerContinue (formatInv_freeBus h o r) o r
  | tick | reqFlush => exact formatInv_admitJob h
  | cmd alive idle c => exact ⟨h.1, fun _ => emitted_commandWrite c⟩
  | data alive idle m db p k => exact ⟨h.1, fun _ => emitted_dataWrite _ _ _⟩
  | init | contrast | teardown | release => exact ⟨h.1, by simp⟩
  | hold | refuse | raster | result | arm | disarm | jobStart | surface => exact h

/-- Settles O52: a step makes one of the changes of `Change`, and each keeps the two formats. -/
theorem onlyTwoFormatsEmitted : Obligations.OnlyTwoFormatsEmitted := by
  intro s t h hstep
  obtain ⟨_, _, _, hc⟩ := change_step hstep
  exact formatInv_change hc h

end Sys2Proof.Machine
end

section
/-! Bus writes read back (30_encoding.md R101, R102). -/

namespace Sys2Proof

/-- The bytes that a bus write decodes from, and the row each form gives. -/
theorem decodeWrite_eq_ok_iff {bs : List Byte} {i : Instr} :
    decodeWrite bs = .ok i ↔
      (∃ c, bs = [Config.cbCmd, c] ∧ i = commandRow c) ∨
      (∃ data, bs = Config.cbData :: data ∧ data.length = Config.chunk ∧ i = .dataw data) := by
  constructor
  · intro h
    unfold decodeWrite at h
    split at h
    · cases h
    · split_ifs at h with hcmd hdata
      · split at h
        · cases h
          exact .inl ⟨_, by rw [hcmd], rfl⟩
        · cases h
      · obtain ⟨hcontrol, hlen⟩ := hdata
        cases h
        exact .inr ⟨_, by rw [hcontrol], hlen, rfl⟩
  · rintro (⟨c, rfl, rfl⟩ | ⟨data, rfl, hlen, rfl⟩)
    · rfl
    · simp [decodeWrite, hlen, Config.cbCmd, Config.cbData]

theorem wellFormed_commandRow (c : Byte) : WellFormed (commandRow c) = true := by
  unfold commandRow
  split
  case h_17 => split_ifs <;> rfl
  all_goals rfl

/-- A byte whose upper five bits are those of 0xB0 is the page select of its lower three (R103). -/
theorem pageSelect_extractLsb' {c : Byte} (h : c.toNat / 8 = 0x16) : pageSelect (c.extractLsb' 0 3) = c := by
  apply BitVec.eq_of_toNat_eq
  simp [pageSelect]
  omega

/-- The row that names a command byte is encoded as its command write. -/
theorem encode_commandRow (c : Byte) : encode (commandRow c) = encodeCommand c := by
  unfold commandRow
  split
  case h_17 =>
    split_ifs with hpage
    · exact congrArg encodeCommand (pageSelect_extractLsb' hpage)
    · rfl
  all_goals exact congrArg encodeCommand (BitVec.eq_of_toNat_eq (Eq.symm ‹_›))

/-- Settles O4, along the two forms of a write that decodes. -/
theorem decodedWriteIsItsEncoding : Obligations.DecodedWriteIsItsEncoding := by
  intro bs i h
  rcases decodeWrite_eq_ok_iff.1 h with ⟨c, rfl, rfl⟩ | ⟨data, rfl, hlen, rfl⟩
  · exact ⟨wellFormed_commandRow c, encode_commandRow c, rfl⟩
  · have wf : WellFormed (.dataw data) = true := by simpa [WellFormed] using hlen
    obtain ⟨-, hlength⟩ := Laws.EncodedLength.dataw data wf
    exact ⟨wf, rfl, hlength⟩

end Sys2Proof
end

section
/-! The rows an operation word selects (30_encoding.md R97, R98).  `operationRow` gives an instruction the `match`/`mask`
pair of its row: a word that decodes selects its row (`selectsRow_of_decodeWord`), and a word that selects a row decodes
to it.  The decoder tests field by field and a row under one mask: `field_eq_iff` and `and_mask_eq_or_iff` turn the one
into the other. -/

namespace Sys2Proof

open Machine

/-! Fields and masks. -/

/-- The bits of the field `w[lo+n-1 : lo]`. -/
def fieldMask (lo n : Nat) : OpWord := (BitVec.allOnes n).setWidth 64 <<< lo

/-- A test of a field is a test under that field's mask. -/
theorem field_eq_iff {w : OpWord} {lo n : Nat} {v : BitVec n} (inside : lo + n ≤ 64) :
    field w lo n = v ↔ w &&& fieldMask lo n = v.setWidth 64 <<< lo := by
  constructor
  · rintro rfl
    ext j hj
    by_cases hlo : j < lo
    · simp [field, fieldMask, hlo]
    · have hidx : lo + (j - lo) = j := by omega
      simp [field, fieldMask, hlo, hidx, hj, Bool.and_comm]
  · intro h
    ext j hj
    have hbit : (w &&& fieldMask lo n).getLsbD (lo + j) = (v.setWidth 64 <<< lo).getLsbD (lo + j) := by rw [h]
    have hword : lo + j < 64 := by omega
    have hlow : j < 64 := by omega
    simpa [field, fieldMask, hj, hword, hlow] using hbit

/-- Of two patterns under disjoint masks, the first mask leaves the first. -/
theorem or_and_mask_left {m₁ m₂ a b : OpWord} (ha : a &&& m₁ = a) (hb : b &&& m₂ = b) (disjoint : m₁ &&& m₂ = 0) :
    (a ||| b) &&& m₁ = a := by
  have hba : b &&& m₁ = 0 := by rw [← hb, BitVec.and_assoc, BitVec.and_comm m₂, disjoint]; simp
  rw [BitVec.and_or_distrib_right, ha, hba]
  simp

/-- Two tests under disjoint masks are one test under both. -/
theorem and_mask_eq_or_iff {w m₁ m₂ a b : OpWord} (ha : a &&& m₁ = a) (hb : b &&& m₂ = b) (disjoint : m₁ &&& m₂ = 0) :
    (w &&& m₁ = a ∧ w &&& m₂ = b) ↔ w &&& (m₁ ||| m₂) = a ||| b := by
  constructor
  · rintro ⟨rfl, rfl⟩
    exact BitVec.and_or_distrib_left
  · intro h
    have absorb (x y : OpWord) : (x ||| y) &&& x = x := by
      ext j hj
      cases hx : x[j] <;> simp [hx]
    constructor
    · calc w &&& m₁ = w &&& (m₁ ||| m₂) &&& m₁ := by rw [BitVec.and_assoc, absorb]
        _ = a := by rw [h, or_and_mask_left ha hb disjoint]
    · calc w &&& m₂ = w &&& (m₁ ||| m₂) &&& m₂ := by rw [BitVec.and_assoc, BitVec.or_comm, absorb]
        _ = b := by rw [h, BitVec.or_comm, or_and_mask_left hb ha (by rwa [BitVec.and_comm])]

/-! The fields of each form of word, under one mask. -/

theorem noOperand_fields_iff {w : OpWord} {c : BitVec 4} :
    (field w 0 4 = c ∧ field w 4 60 = 0) ↔ w &&& BitVec.allOnes 64 = c.setWidth 64 := by
  simp (disch := decide +revert) only [field_eq_iff, and_mask_eq_or_iff, BitVec.shiftLeft_zero]
  rw [show (0 : BitVec 60).setWidth 64 <<< 4 = 0#64 from rfl, BitVec.or_zero]
  rfl

theorem reserved_fields_iff {w : OpWord} {c : BitVec 4} : field w 0 4 = c ↔ w &&& 0xF = c.setWidth 64 := by
  simp (disch := decide) only [field_eq_iff, BitVec.shiftLeft_zero]
  rfl

theorem reservedMode_fields_iff {w : OpWord} : (field w 0 4 = 3 ∧ field w 4 2 = 3) ↔ w &&& 0x3F = 0x33 := by
  simp (disch := decide) only [field_eq_iff, and_mask_eq_or_iff]
  rfl

/-- The rows of PIXEL differ in `MODE` alone (R93). -/
theorem pixel_fields_iff {w : OpWord} {mode : BitVec 2} :
    (field w 0 4 = 3 ∧ field w 4 2 = mode ∧ field w 6 10 = 0 ∧ field w 48 16 = 0) ↔
      w &&& 0xFFFF00000000FFFF = 0x3 ||| mode.setWidth 64 <<< 4 := by
  simp (disch := decide +revert) only [field_eq_iff, and_mask_eq_or_iff]
  rw [show (0 : BitVec 10).setWidth 64 <<< 6 ||| (0 : BitVec 16).setWidth 64 <<< 48 = 0#64 from rfl, BitVec.or_zero]
  rfl

theorem cmd_fields_iff {w : OpWord} :
    (field w 0 4 = 6 ∧ field w 4 4 = 0 ∧ field w 16 48 = 0) ↔ w &&& 0xFFFFFFFFFFFF00FF = 0x06 := by
  simp (disch := decide) only [field_eq_iff, and_mask_eq_or_iff]
  rfl

theorem data_fields_iff {w : OpWord} :
    (field w 0 4 = 7 ∧ field w 4 4 = 0 ∧ field w 14 2 = 0 ∧ field w 16 48 = 0) ↔
      w &&& 0xFFFFFFFFFFFFC0FF = 0x07 := by
  simp (disch := decide) only [field_eq_iff, and_mask_eq_or_iff]
  rfl

theorem contrastSet_fields_iff {w : OpWord} :
    (field w 0 4 = 0xA ∧ field w 4 2 = 0 ∧ field w 7 1 = 0 ∧ field w 8 8 = 0 ∧ field w 48 16 = 0) ↔
      w &&& 0xFFFF00000000FFBF = 0x0A := by
  simp (disch := decide) only [field_eq_iff, and_mask_eq_or_iff]
  rfl

/-! The decoder's rows. -/

/-- The `match`/`mask` pair of an operation word's row (R97, R98); a bus write has none. -/
def operationRow : Instr → Option (OpWord × OpWord)
  | .tick => some (0x1, BitVec.allOnes 64)
  | .reqFlush => some (0x2, BitVec.allOnes 64)
  | .pixelSet _ _ => some (0x03, 0xFFFF00000000FFFF)
  | .pixelClear _ _ => some (0x13, 0xFFFF00000000FFFF)
  | .pixelToggle _ _ => some (0x23, 0xFFFF00000000FFFF)
  | .sync => some (0x4, BitVec.allOnes 64)
  | .flushStep => some (0x5, BitVec.allOnes 64)
  | .cmd _ => some (0x06, 0xFFFFFFFFFFFF00FF)
  | .data _ _ => some (0x07, 0xFFFFFFFFFFFFC0FF)
  | .init => some (0x8, BitVec.allOnes 64)
  | .contrastGet => some (0x9, BitVec.allOnes 64)
  | .contrastSet _ _ => some (0x0A, 0xFFFF00000000FFBF)
  | .arm => some (0xB, BitVec.allOnes 64)
  | .disarm => some (0xC, BitVec.allOnes 64)
  | .teardown => some (0xD, BitVec.allOnes 64)
  | .jobStart => some (0xE, BitVec.allOnes 64)
  | .reservedOpc0 _ => some (0x0, 0xF)
  | .reservedOpcF _ => some (0xF, 0xF)
  | .reservedPixelMode3 _ => some (0x33, 0x3F)
  | .cmdw _ | .dataw _ | .cbDisplayOff | .cbClockDivide | .cbMultiplex | .cbDisplayOffset | .cbStartLine
  | .cbSegmentRemap | .cbComScan | .cbComPins | .cbInitContrast | .cbEntireDisplay | .cbNormalPolarity
  | .cbChargePump | .cbAddressingMode | .cbDisplayOn | .cbSelectPage _ | .cbColumnLow | .cbColumnHigh
  | .cbSetContrast => none

/-- The word selects the instruction's row: `w & mask = match` (R97). -/
def SelectsRow (w : OpWord) (i : Instr) : Prop := ∃ row, operationRow i = some row ∧ w &&& row.2 = row.1

theorem selectsRow_of_decodeNoOperand {w : OpWord} {i j : Instr} {c : BitVec 4} (opc : field w 0 4 = c)
    (row : operationRow i = some (c.setWidth 64, BitVec.allOnes 64)) (h : decodeNoOperand w i = .ok j) :
    SelectsRow w j := by
  unfold decodeNoOperand at h
  split_ifs at h with hzero
  cases h
  exact ⟨_, row, noOperand_fields_iff.1 ⟨opc, hzero⟩⟩

theorem selectsRow_of_decodePixel {w : OpWord} {i : Instr} (opc : field w 0 4 = 3) (h : decodePixel w = .ok i) :
    SelectsRow w i := by
  unfold decodePixel at h
  split_ifs at h with h3 hzero h0 h1 <;> cases h
  · exact ⟨_, rfl, reservedMode_fields_iff.1 ⟨opc, h3⟩⟩
  · exact ⟨_, rfl, pixel_fields_iff.1 ⟨opc, h0, hzero⟩⟩
  · exact ⟨_, rfl, pixel_fields_iff.1 ⟨opc, h1, hzero⟩⟩
  · have h2 : field w 4 2 = 2 := by
      generalize field w 4 2 = mode at h0 h1 h3
      decide +revert
    exact ⟨_, rfl, pixel_fields_iff.1 ⟨opc, h2, hzero⟩⟩

theorem selectsRow_of_decodeCmd {w : OpWord} {i : Instr} (opc : field w 0 4 = 6) (h : decodeCmd w = .ok i) :
    SelectsRow w i := by
  unfold decodeCmd at h
  split_ifs at h with hzero
  cases h
  exact ⟨_, rfl, cmd_fields_iff.1 ⟨opc, hzero⟩⟩

theorem selectsRow_of_decodeData {w : OpWord} {i : Instr} (opc : field w 0 4 = 7) (h : decodeData w = .ok i) :
    SelectsRow w i := by
  unfold decodeData at h
  split_ifs at h with hzero
  cases h
  exact ⟨_, rfl, data_fields_iff.1 ⟨opc, hzero⟩⟩

theorem selectsRow_of_decodeContrastSet {w : OpWord} {i : Instr} (opc : field w 0 4 = 0xA)
    (h : decodeContrastSet w = .ok i) : SelectsRow w i := by
  unfold decodeContrastSet at h
  split_ifs at h with hzero
  cases h
  exact ⟨_, rfl, contrastSet_fields_iff.1 ⟨opc, hzero⟩⟩

/-- A word that decodes selects the row it decodes to. -/
theorem selectsRow_of_decodeWord {w : OpWord} {i : Instr} (h : decodeWord w = .ok i) : SelectsRow w i := by
  have opc {n : Nat} (hn : (field w 0 4).toNat = n) : field w 0 4 = BitVec.ofNat 4 n := by
    rw [← hn, BitVec.ofNat_toNat, BitVec.setWidth_eq]
  unfold decodeWord at h
  split at h
  case h_1 hn => cases h; exact ⟨_, rfl, reserved_fields_iff.1 (opc hn)⟩
  case h_4 hn => exact selectsRow_of_decodePixel (opc hn) h
  case h_7 hn => exact selectsRow_of_decodeCmd (opc hn) h
  case h_8 hn => exact selectsRow_of_decodeData (opc hn) h
  case h_11 hn => exact selectsRow_of_decodeContrastSet (opc hn) h
  case h_16 =>
    cases h
    simp only [imp_false] at *
    have hn : (field w 0 4).toNat = 15 := by omega
    exact ⟨_, rfl, reserved_fields_iff.1 (opc hn)⟩
  all_goals exact selectsRow_of_decodeNoOperand (opc ‹_›) rfl h

theorem and_mask_of_decodeWord {w c m : OpWord} {i : Instr} (row : operationRow i = some (c, m))
    (h : decodeWord w = .ok i) : w &&& m = c := by
  obtain ⟨_, hrow, hsel⟩ := selectsRow_of_decodeWord h
  cases row.symm.trans hrow
  exact hsel

/-- An instruction without operands decodes from its code alone (R92). -/
theorem decodeWord_eq_ok_iff_code {w c : OpWord} {i : Instr} (row : operationRow i = some (c, BitVec.allOnes 64))
    (code : decodeWord c = .ok i) : decodeWord w = .ok i ↔ w = c := by
  constructor
  · intro h
    rw [← and_mask_of_decodeWord row h, BitVec.and_allOnes]
  · rintro rfl
    exact code

theorem decodeWord_of_pixel_mask {w : OpWord} {mode : BitVec 2} (known : mode ≠ 3)
    (h : w &&& 0xFFFF00000000FFFF = 0x3 ||| mode.setWidth 64 <<< 4) :
    decodeWord w = .ok (if mode = 0 then .pixelSet (field w 16 16) (field w 32 16)
      else if mode = 1 then .pixelClear (field w 16 16) (field w 32 16)
      else .pixelToggle (field w 16 16) (field w 32 16)) := by
  obtain ⟨opc, hmode, hzero⟩ := pixel_fields_iff.2 h
  have hpixel : decodeWord w = decodePixel w := by simp [decodeWord, opc]
  rw [hpixel, decodePixel, hmode, if_neg known, if_pos hzero]
  split_ifs <;> rfl

theorem decodeWord_of_cmd_mask {w : OpWord} (h : w &&& 0xFFFFFFFFFFFF00FF = 0x06) :
    decodeWord w = .ok (.cmd (field w 8 8)) := by
  obtain ⟨opc, hzero⟩ := cmd_fields_iff.2 h
  have hcmd : decodeWord w = decodeCmd w := by simp [decodeWord, opc]
  rw [hcmd, decodeCmd, if_pos hzero]

theorem decodeWord_of_data_mask {w : OpWord} (h : w &&& 0xFFFFFFFFFFFFC0FF = 0x07) :
    decodeWord w = .ok (.data (field w 8 3) (field w 11 3)) := by
  obtain ⟨opc, hzero⟩ := data_fields_iff.2 h
  have hdata : decodeWord w = decodeData w := by simp [decodeWord, opc]
  rw [hdata, decodeData, if_pos hzero]

theorem decodeWord_of_contrastSet_mask {w : OpWord} (h : w &&& 0xFFFF00000000FFBF = 0x0A) :
    decodeWord w = .ok (.contrastSet (field w 16 32) (field w 6 1 = 1)) := by
  obtain ⟨opc, hzero⟩ := contrastSet_fields_iff.2 h
  have hset : decodeWord w = decodeContrastSet w := by simp [decodeWord, opc]
  rw [hset, decodeContrastSet, if_pos hzero]

/-- A word that selects an operation's row decodes (R97). -/
theorem decodes_of_selects {w : OpWord} {row : OpWord × OpWord} (hrow : row ∈ operationRows)
    (hsel : w &&& row.2 = row.1) : ∃ i, decodeWord w = .ok i := by
  rcases List.mem_append.1 hrow with hrow | hrow
  · obtain ⟨c, hc, rfl⟩ := List.mem_map.1 hrow
    have hw : w = c := (BitVec.and_allOnes).symm.trans hsel
    subst hw
    simp only [List.mem_cons, List.not_mem_nil, or_false] at hc
    rcases hc with rfl | rfl | rfl | rfl | rfl | rfl | rfl | rfl | rfl | rfl <;> exact ⟨_, rfl⟩
  · simp only [List.mem_cons, List.not_mem_nil, or_false] at hrow
    rcases hrow with rfl | rfl | rfl | rfl | rfl | rfl
    · exact ⟨_, decodeWord_of_pixel_mask (mode := 0) (by decide) hsel⟩
    · exact ⟨_, decodeWord_of_pixel_mask (mode := 1) (by decide) hsel⟩
    · exact ⟨_, decodeWord_of_pixel_mask (mode := 2) (by decide) hsel⟩
    · exact ⟨_, decodeWord_of_cmd_mask hsel⟩
    · exact ⟨_, decodeWord_of_data_mask hsel⟩
    · exact ⟨_, decodeWord_of_contrastSet_mask hsel⟩

/-- The `match`/`mask` pairs of the reserved words (R98). -/
def reservedRows : List (OpWord × OpWord) := [(0x0, 0xF), (0xF, 0xF), (0x33, 0x3F)]

/-- Every row of an operation word is an operation's or a reserved one. -/
theorem mem_rows_of_operationRow {i : Instr} {row : OpWord × OpWord} (h : operationRow i = some row) :
    row ∈ operationRows ∨ row ∈ reservedRows := by
  cases i <;> cases h <;> decide

/-- The decoder's only error on an operation word is a must-be-zero bit (R97, R100). -/
theorem decodeWord_ok_or_reservedBits (w : OpWord) :
    (∃ i, decodeWord w = .ok i) ∨ decodeWord w = .error .reservedBits := by
  have noOperand (i : Instr) : (∃ j, decodeNoOperand w i = .ok j) ∨ decodeNoOperand w i = .error .reservedBits := by
    unfold decodeNoOperand; split_ifs <;> simp
  unfold decodeWord
  split
  case h_1 | h_16 => exact .inl ⟨_, rfl⟩
  case h_4 => unfold decodePixel; split_ifs <;> simp
  case h_7 => unfold decodeCmd; split_ifs <;> simp
  case h_8 => unfold decodeData; split_ifs <;> simp
  case h_11 => unfold decodeContrastSet; split_ifs <;> simp
  all_goals exact noOperand _

/-- A word with a known code and mode is refused exactly when it selects no row (R97, R98). -/
theorem decodeWord_eq_reservedBits_iff {w : OpWord} (known : KnownOpcode w) :
    decodeWord w = .error .reservedBits ↔ ∀ row ∈ operationRows, w &&& row.2 ≠ row.1 := by
  constructor
  · intro h row hrow hsel
    obtain ⟨i, hi⟩ := decodes_of_selects hrow hsel
    cases h.symm.trans hi
  · intro hno
    refine (decodeWord_ok_or_reservedBits w).resolve_left ?_
    rintro ⟨i, hi⟩
    obtain ⟨row, hi, hsel⟩ := selectsRow_of_decodeWord hi
    obtain ⟨h0, hF, h33⟩ := known
    rcases mem_rows_of_operationRow hi with hrow | hrow
    · exact hno row hrow hsel
    · simp only [reservedRows, List.mem_cons, List.not_mem_nil, or_false] at hrow
      rcases hrow with rfl | rfl | rfl
      · exact h0 hsel
      · exact hF hsel
      · exact h33 hsel

/-- Settles O5: a word that decodes selects its row, and a word that selects a row decodes to it. -/
theorem masksSelectRows : Obligations.MasksSelectRows := by
  intro w
  exact ⟨decodeWord_eq_ok_iff_code rfl rfl, decodeWord_eq_ok_iff_code rfl rfl, decodeWord_eq_ok_iff_code rfl rfl,
    decodeWord_eq_ok_iff_code rfl rfl, decodeWord_eq_ok_iff_code rfl rfl, decodeWord_eq_ok_iff_code rfl rfl,
    decodeWord_eq_ok_iff_code rfl rfl, decodeWord_eq_ok_iff_code rfl rfl, decodeWord_eq_ok_iff_code rfl rfl,
    decodeWord_eq_ok_iff_code rfl rfl,
    ⟨fun ⟨_, _, h⟩ => and_mask_of_decodeWord rfl h, fun h => ⟨_, _, decodeWord_of_pixel_mask (mode := 0) (by decide) h⟩⟩,
    ⟨fun ⟨_, _, h⟩ => and_mask_of_decodeWord rfl h, fun h => ⟨_, _, decodeWord_of_pixel_mask (mode := 1) (by decide) h⟩⟩,
    ⟨fun ⟨_, _, h⟩ => and_mask_of_decodeWord rfl h, fun h => ⟨_, _, decodeWord_of_pixel_mask (mode := 2) (by decide) h⟩⟩,
    ⟨fun ⟨_, h⟩ => and_mask_of_decodeWord rfl h, fun h => ⟨_, decodeWord_of_cmd_mask h⟩⟩,
    ⟨fun ⟨_, _, h⟩ => and_mask_of_decodeWord rfl h, fun h => ⟨_, _, decodeWord_of_data_mask h⟩⟩,
    ⟨fun ⟨_, _, h⟩ => and_mask_of_decodeWord rfl h, fun h => ⟨_, _, decodeWord_of_contrastSet_mask h⟩⟩,
    decodeWord_eq_reservedBits_iff⟩

end Sys2Proof
end

section
/-! The converter's bits (42_pixel_packing.md R183, R188 to R195).  A pixel operation is one `onBit` on one bit of `DB`
(`getLsbD_read_pixelOp`), so the PIXEL laws are laws of `onBit`.  The pixel loop is one fold over `surfacePixels`, and
what it leaves in a pixel and in the log is proved over any list of pixels. -/

namespace Sys2Proof.Machine

/-! One pixel operation. -/

/-- What a mode does to the one bit under its mask. -/
def PixelMode.onBit : PixelMode → Bool → Bool
  | .set, _ => true
  | .clear, _ => false
  | .toggle, b => !b

/-- Bit `k` of `1 << (y mod 8)`. -/
theorem getLsbD_dbMask {y k : Nat} (hk : k < 8) : (dbMask y).getLsbD k = decide (k = y % 8) := by
  rw [dbMask, BitVec.natCast_eq_ofNat, BitVec.getLsbD_ofNat, Nat.one_shiftLeft, Nat.testBit_two_pow]
  simp [hk, eq_comm]

/-- A mode changes the bits under its mask, and no other. -/
theorem PixelMode.getLsbD_apply (mode : PixelMode) (b m : Byte) {k : Nat} (hk : k < 8) :
    (mode.apply b m).getLsbD k = if m.getLsbD k then mode.onBit (b.getLsbD k) else b.getLsbD k := by
  cases mode with
  | set => rw [apply, BitVec.getLsbD_or]; cases m.getLsbD k <;> simp [onBit]
  | clear => rw [apply, BitVec.getLsbD_and, BitVec.getLsbD_not]; cases m.getLsbD k <;> simp [onBit, hk]
  | toggle => rw [apply, BitVec.getLsbD_xor]; cases m.getLsbD k <;> simp [onBit]

theorem pixelOp_outOfBounds {mode : PixelMode} {x y : Int} {r : Raster} (h : inBounds x y = false) :
    pixelOp mode x y r = { r with log := r.log ++ [.warnOob x y] } := by simp [pixelOp, h]

theorem pixelOp_inBounds_log {mode : PixelMode} {x y : Int} {r : Raster} (h : inBounds x y = true) :
    (pixelOp mode x y r).log = r.log := by simp [pixelOp, h]

/-- In bounds, the bit of the pixel becomes what the mode makes of it; every other bit of `DB` stays (R183). -/
theorem getLsbD_read_pixelOp {mode : PixelMode} {x y : Int} {r : Raster} {a k : Nat} (h : inBounds x y = true)
    (hk : k < 8) :
    (Memory.read (pixelOp mode x y r).db a).getLsbD k =
      if a = dbIndex x.toNat y.toNat ∧ k = y.toNat % 8 then mode.onBit ((Memory.read r.db a).getLsbD k)
      else (Memory.read r.db a).getLsbD k := by
  simp only [pixelOp, h, if_true]
  by_cases ha : a = dbIndex x.toNat y.toNat
  · subst ha
    simp [PixelMode.getLsbD_apply mode _ _ hk, getLsbD_dbMask hk]
  · simp [Memory.read_write_other _ _ ha, ha]

/-- Pixels with one bit of `DB` in common are the same pixel. -/
theorem pixel_eq_of_dbIndex_eq {x y x' y' : Nat} (hx : x < 128) (hx' : x' < 128)
    (hindex : dbIndex x y = dbIndex x' y') (hbit : y % 8 = y' % 8) : x = x' ∧ y = y' := by
  simp only [dbIndex, Config.width] at hindex
  omega

/-- A device pixel after an operation, in bounds or not, on any pixel. -/
theorem readPixel_pixelOp {mode : PixelMode} {x y : Int} {r : Raster} {x' y' : Nat} (hx' : x' < 128) (hy' : y' < 64) :
    readPixel (pixelOp mode x y r).db x' y' =
      if ((x' : Int), (y' : Int)) = (x, y) then mode.onBit (readPixel r.db x' y') else readPixel r.db x' y' := by
  cases h : inBounds x y with
  | false =>
    have hne : ((x' : Int), (y' : Int)) ≠ (x, y) := by
      rintro ⟨⟩
      have hin : inBounds x' y' = true := (inBounds_iff _ _).2 (by omega)
      simp [hin] at h
    rw [pixelOp_outOfBounds h, if_neg hne]
  | true =>
    obtain ⟨hx, hxw, hy, -⟩ := (inBounds_iff x y).1 h
    lift x to Nat using hx
    lift y to Nat using hy
    simp only [readPixel, getLsbD_read_pixelOp h (Nat.mod_lt _ (by decide)), Int.toNat_natCast, Prod.mk.injEq,
      Nat.cast_inj]
    refine if_congr ⟨fun ⟨hi, hb⟩ => pixel_eq_of_dbIndex_eq hx' (by omega) hi hb, ?_⟩ rfl rfl
    rintro ⟨rfl, rfl⟩
    exact ⟨rfl, rfl⟩

/-! The PIXEL laws. -/

/-- Two operations on one pixel read as a third when they do on its bit. -/
theorem read_pixelOp_pixelOp {first second both : PixelMode} {x y : Int} {r : Raster} (h : inBounds x y = true)
    (hbit : ∀ b, second.onBit (first.onBit b) = both.onBit b) (a : Nat) :
    Memory.read (pixelOp second x y (pixelOp first x y r)).db a = Memory.read (pixelOp both x y r).db a := by
  refine BitVec.eq_of_getLsbD_eq fun k hk => ?_
  simp only [getLsbD_read_pixelOp h hk]
  split
  · exact hbit _
  · rfl

theorem read_toggle_toggle {x y : Int} {r : Raster} (h : inBounds x y = true) (a : Nat) :
    Memory.read (pixelOp .toggle x y (pixelOp .toggle x y r)).db a = Memory.read r.db a := by
  refine BitVec.eq_of_getLsbD_eq fun k hk => ?_
  simp only [getLsbD_read_pixelOp h hk]
  split
  · exact Bool.not_not _
  · rfl

/-- Operations on different pixels commute: no bit is the bit of both. -/
theorem read_pixelOp_comm {mode mode' : PixelMode} {x y x' y' : Int} {r : Raster} (h : inBounds x y = true)
    (h' : inBounds x' y' = true) (hne : (x, y) ≠ (x', y')) (a : Nat) :
    Memory.read (pixelOp mode x y (pixelOp mode' x' y' r)).db a =
      Memory.read (pixelOp mode' x' y' (pixelOp mode x y r)).db a := by
  refine BitVec.eq_of_getLsbD_eq fun k hk => ?_
  have apart : ¬ ((a = dbIndex x.toNat y.toNat ∧ k = y.toNat % 8) ∧
      (a = dbIndex x'.toNat y'.toNat ∧ k = y'.toNat % 8)) := by
    rintro ⟨⟨rfl, rfl⟩, hindex, hbit⟩
    rw [inBounds_iff] at h h'
    obtain ⟨hx, hy⟩ := pixel_eq_of_dbIndex_eq (by omega) (by omega) hindex hbit
    exact hne (Prod.ext (by omega) (by omega))
  simp only [getLsbD_read_pixelOp h hk, getLsbD_read_pixelOp h' hk]
  split_ifs with own other
  · exact absurd ⟨own, other⟩ apart
  all_goals rfl

/-- Settles O16: the laws of `onBit`, at the operation's own bit. -/
theorem pixelLaws : Obligations.PixelLaws := by
  intro r x y
  refine ⟨fun h => ⟨?_, ?_, ?_, ?_, ?_, ?_, ?_⟩, fun h mode => ?_⟩
  · exact read_pixelOp_pixelOp h fun _ => rfl
  · exact read_pixelOp_pixelOp h fun _ => rfl
  · exact read_toggle_toggle h
  · exact read_pixelOp_pixelOp h fun _ => rfl
  · exact read_pixelOp_pixelOp h fun _ => rfl
  · exact fun _ _ _ _ a h' hne => read_pixelOp_comm h h' hne a
  · intro mode x' y' hx' hy' hne
    rw [readPixel_pixelOp hx' hy', if_neg hne]
  · rw [pixelOp_outOfBounds h]

/-! The pixel loop. -/

/-- The loop's body: one surface pixel, written to the device (R188). -/
def writeSurfacePixel (S : Surface) (r : Raster) (p : Nat × Nat) : Raster :=
  pixelWrite p.1 p.2 (surfBit S p.1 p.2) r

/-- The two loops of SyncBody are one loop over the surface's pixels in order (R191). -/
theorem syncLoop_eq_foldl (S : Surface) (r : Raster) :
    syncLoop S r = (surfacePixels S).foldl (writeSurfacePixel S) r := by
  simp only [syncLoop, surfacePixels, List.foldl_flatMap, List.foldl_map]
  rfl

theorem mem_surfacePixels {S : Surface} {x y : Nat} :
    (x, y) ∈ surfacePixels S ↔ (x : Int) < S.ws ∧ (y : Int) < S.hs := by
  simp [surfacePixels, and_comm]

/-- An in-bounds pixel takes the surface's bit; no other device pixel changes. -/
theorem readPixel_writeSurfacePixel {S : Surface} {r : Raster} {p : Nat × Nat} {x y : Nat} (hx : x < 128)
    (hy : y < 64) :
    readPixel (writeSurfacePixel S r p).db x y = if (x, y) = p then surfBit S x y else readPixel r.db x y := by
  obtain ⟨px, py⟩ := p
  simp only [writeSurfacePixel, pixelWrite, readPixel_pixelOp hx hy, Prod.mk.injEq, Nat.cast_inj]
  refine ite_congr rfl ?_ fun _ => rfl
  rintro ⟨rfl, rfl⟩
  cases surfBit S x y <;> rfl

theorem writeSurfacePixel_log (S : Surface) (r : Raster) (p : Nat × Nat) :
    (writeSurfacePixel S r p).log = if inBounds p.1 p.2 then r.log else r.log ++ [.warnOob p.1 p.2] := by
  rw [writeSurfacePixel, pixelWrite]
  cases h : inBounds p.1 p.2 with
  | true => rw [pixelOp_inBounds_log h, if_pos rfl]
  | false => rw [pixelOp_outOfBounds h, if_neg Bool.false_ne_true]

/-- After any list of surface pixels, a device pixel holds the surface's bit if it is among them (R189). -/
theorem readPixel_foldl_writeSurfacePixel {S : Surface} {x y : Nat} (hx : x < 128) (hy : y < 64)
    (ps : List (Nat × Nat)) (r : Raster) :
    readPixel (ps.foldl (writeSurfacePixel S) r).db x y =
      if (x, y) ∈ ps then surfBit S x y else readPixel r.db x y := by
  induction ps generalizing r with
  | nil => rfl
  | cons p ps ih =>
    rw [List.foldl_cons, ih, readPixel_writeSurfacePixel hx hy]
    by_cases hps : (x, y) ∈ ps <;> simp [hps]

/-- Any list of surface pixels logs one warning for each that is outside the device, in order (R187, R189). -/
theorem foldl_writeSurfacePixel_log (S : Surface) (ps : List (Nat × Nat)) (r : Raster) :
    (ps.foldl (writeSurfacePixel S) r).log =
      r.log ++ (ps.filter fun p => !inBounds p.1 p.2).map fun p => .warnOob p.1 p.2 := by
  induction ps generalizing r with
  | nil => simp
  | cons p ps ih =>
    rw [List.foldl_cons, ih, writeSurfacePixel_log]
    cases h : inBounds p.1 p.2 <;> simp [h]

theorem readPixel_syncLoop {S : Surface} {r : Raster} {x y : Nat} (hx : x < 128) (hy : y < 64) :
    readPixel (syncLoop S r).db x y =
      if (x : Int) < S.ws ∧ (y : Int) < S.hs then surfBit S x y else readPixel r.db x y := by
  rw [syncLoop_eq_foldl, readPixel_foldl_writeSurfacePixel hx hy]
  exact if_congr mem_surfacePixels rfl rfl

theorem syncLoop_log (S : Surface) (r : Raster) : (syncLoop S r).log = r.log ++ syncWarnings S := by
  rw [syncLoop_eq_foldl, foldl_writeSurfacePixel_log, syncWarnings]

/-! SYNC of the HOST. -/

/-- Within the contract, the HOST's SYNC runs the pixel loop and reports RES_OK (R188). -/
theorem execSync_ready {s : State} {m : Memory} (ready : HostDbReady s m) (ok : surfaceOk s.surf = true) :
    exec .sync s = .next { s with
      db := some (syncLoop s.surf ⟨m, s.log⟩).db, log := s.log ++ syncWarnings s.surf, hres := .resOk, hval := 0 } := by
  have hbody : syncBody s.surf ⟨m, s.log⟩ = some (syncLoop s.surf ⟨m, s.log⟩) := if_pos ok
  calc exec .sync s = .next (putRaster s (syncLoop s.surf ⟨m, s.log⟩)) := by
        rw [exec, execSync, hostDb_ready ready, hbody]
    _ = _ := by rw [putRaster, finish, syncLoop_log]

/-- Settles O19: the pixel loop's pixels and warnings. -/
theorem syncOfOtherDimensions : Obligations.SyncOfOtherDimensions :=
  fun _ _ ready ok => ⟨_, execSync_ready ready ok, fun _ _ hx hy => readPixel_syncLoop hx hy⟩

/-! The surface of this hardware. -/

theorem WellFormedSurface.contract {S : Surface} (wf : WellFormedSurface S) : surfaceOk S = true := wf.2.2

/-- The surface covers the device, so every device pixel is the surface's (R194). -/
theorem readPixel_syncLoop_of_wellFormed {S : Surface} {r : Raster} (wf : WellFormedSurface S) {x y : Nat}
    (hx : x < 128) (hy : y < 64) : readPixel (syncLoop S r).db x y = surfBit S x y := by
  obtain ⟨hws, hhs, -⟩ := wf
  rw [readPixel_syncLoop hx hy, if_pos (by omega)]

/-- The device covers the surface, so there is no warning. -/
theorem syncWarnings_of_wellFormed {S : Surface} (wf : WellFormedSurface S) : syncWarnings S = [] := by
  obtain ⟨hws, hhs, -⟩ := wf
  rw [syncWarnings, List.map_eq_nil_iff, List.filter_eq_nil_iff]
  rintro ⟨x, y⟩ hp
  have hin : inBounds x y = true := by
    rw [mem_surfacePixels] at hp
    exact (inBounds_iff _ _).2 (by omega)
  simp [hin]

/-- Settles O18: the pixel loop's pixels, read by the inverse formula. -/
theorem syncRoundTrip : Obligations.SyncRoundTrip := by
  intro s t m ready wf hexec
  rw [execSync_ready ready wf.contract] at hexec
  cases hexec
  exact ⟨_, rfl, fun x y hx hy => readPixel_syncLoop_of_wellFormed wf hx hy⟩

/-! The closed form. -/

/-- The sum of weighted bits is the number of these bits. -/
theorem sum_bits_eq_ofBits (n : Nat) (f : Nat → Bool) :
    ((List.range n).map fun r => (f r).toNat * 2 ^ r).sum = Nat.ofBits fun i : Fin n => f i := by
  induction n generalizing f with
  | zero => rfl
  | succ n ih =>
    rw [List.range_succ_eq_map, List.map_cons, List.sum_cons, List.map_map, Nat.ofBits_succ]
    have hshift : ((fun r => (f r).toNat * 2 ^ r) ∘ Nat.succ) = fun r => 2 * ((f (r + 1)).toNat * 2 ^ r) := by
      funext r
      simp only [Function.comp_apply, Nat.succ_eq_add_one]
      ring
    rw [hshift, List.sum_map_mul_left, ih fun r => f (r + 1)]
    simp [Function.comp_def, add_comm]

/-- Bit `r` of the closed form is its surface pixel (R193). -/
theorem getLsbD_packedByte (S : Surface) (i : Nat) {r : Nat} (hr : r < 8) :
    (packedByte S i).getLsbD r = surfBit S (i % 128) (8 * (i / 128) + r) := by
  rw [packedByte, sum_bits_eq_ofBits 8 fun r => surfBit S (i % 128) (8 * (i / 128) + r), BitVec.getLsbD_ofNat,
    Nat.testBit_ofBits_lt _ _ hr]
  simp [hr]

/-- Byte `i` holds at bit `r` the pixel at column `i mod 128`, row `8 * (i div 128) + r`. -/
theorem getLsbD_read_eq_readPixel (m : Memory) (i : Nat) {r : Nat} (hr : r < 8) :
    (Memory.read m i).getLsbD r = readPixel m (i % 128) (8 * (i / 128) + r) := by
  have hindex : dbIndex (i % 128) (8 * (i / 128) + r) = i := by
    simp only [dbIndex, Config.width]
    omega
  have hbit : (8 * (i / 128) + r) % 8 = r := by omega
  rw [readPixel, hindex, hbit]

/-- The closed form reads the pixels of the device alone (R195). -/
theorem packedByte_congr {S S' : Surface} (h : ∀ x y, x < 128 → y < 64 → surfBit S x y = surfBit S' x y) {i : Nat}
    (hi : i < 1024) : packedByte S i = packedByte S' i := by
  refine BitVec.eq_of_getLsbD_eq fun r hr => ?_
  rw [getLsbD_packedByte S i hr, getLsbD_packedByte S' i hr, h _ _ (by omega) (by omega)]

theorem read_syncLoop_of_wellFormed {S : Surface} {r : Raster} (wf : WellFormedSurface S) {i : Nat} (hi : i < 1024) :
    Memory.read (syncLoop S r).db i = packedByte S i := by
  refine BitVec.eq_of_getLsbD_eq fun k hk => ?_
  rw [getLsbD_read_eq_readPixel _ i hk, readPixel_syncLoop_of_wellFormed wf (by omega) (by omega),
    getLsbD_packedByte S i hk]

/-- Settles O17: every bit of a byte is the round trip's pixel, and the bit of the closed form. -/
theorem syncPacksTheSurface : Obligations.SyncPacksTheSurface := by
  intro s m ready wf
  have hexec := execSync_ready ready wf.contract
  rw [syncWarnings_of_wellFormed wf, List.append_nil] at hexec
  refine ⟨_, hexec, fun i hi => read_syncLoop_of_wellFormed wf hi, fun S same i hi => ?_⟩
  rw [packedByte_congr same hi, read_syncLoop_of_wellFormed wf hi]

end Sys2Proof.Machine
end

section
/-! The protocol encoder: the write of each slot of a page (43_protocol_encoder.md R214 to R216), and the completion of
a HOST write (R212, R225). -/

namespace Sys2Proof.Machine

/-! The slots of a page. -/

/-- `PAGESEL(p)` as a number (30_encoding.md R103). -/
theorem pageSelect_eq_ofNat (p : BitVec 3) : pageSelect p = BitVec.ofNat 8 (0xB0 + p.toNat) := by
  apply BitVec.eq_of_toNat_eq
  simp [pageSelect]

/-- Slots 3 to 10 are the data chunks 0 to 7 (R216). -/
theorem slotBytes_chunk (m : Memory) (p : BitVec 3) {k : Nat} (hk : k < 8) :
    slotBytes m p (BitVec.ofNat 4 (k + 3)) = some (dataWrite m p.toNat k) := by
  have hslot : (BitVec.ofNat 4 (k + 3)).toNat = k + 3 := by
    rw [BitVec.toNat_ofNat]
    omega
  rw [slotBytes, hslot]
  exact if_pos (by omega)

/-- Settles O29: slot 0 by the page select's number, slots 1 and 2 by their constants, the others by their chunk. -/
theorem slotBytesFraming : Obligations.SlotBytesFraming := fun m p =>
  ⟨congrArg (fun c => some (commandWrite c)) (pageSelect_eq_ofNat p), rfl, rfl, fun _ hk => slotBytes_chunk m p hk⟩

/-! The completion of a HOST write. -/

/-- With a write outstanding, the BUS agent's step is its owner's continuation on the freed bus (R212). -/
theorem takeStep_bus_of_busy {s : State} {o : Owner} {bytes : List Byte} (busy : s.bus = .busy o bytes)
    (r : BusResult) :
    takeStep (.bus r) s = .next (ownerContinue o r { s with bus := .free, trace := s.trace ++ [.done o r] }) := by
  rcases busComplete_cases r s with ⟨free, -⟩ | ⟨o', bytes', busy', e⟩
  · rw [busy] at free
    cases free
  · rw [busy] at busy'
    cases busy'
    exact congrArg Host.Outcome.next e

/-- The one write of CMD and of DATA is its operation's last: the continuation ends the sequence (R225). -/
theorem hostContinue_of_single {s : State} (single : s.hs = .cmd ∨ s.hs = .data) (r : BusResult) :
    hostContinue r s = hostEnd (resultOf r) s := by
  rcases single with hs | hs <;> rw [hostContinue, hs]

theorem resultOf_eq_ite (r : BusResult) : resultOf r = if r = .ok then .resOk else .eBus := by
  cases r <;> rfl

/-- Settles O36: the completion is the HOST's continuation, which ends the sequence with the answer's result. -/
theorem singleHostWriteEnds : Obligations.SingleHostWriteEnds := by
  intro s r bytes busy single
  rw [takeStep_bus_of_busy busy, ownerContinue, hostContinue_of_single, resultOf_eq_ite]
  · rfl
  · exact single

end Sys2Proof.Machine
end

section
/-! The completion of a write of INIT and of CONTRAST_SET (44_init_contrast.md R244, R245, R251, R252). -/

namespace Sys2Proof.Machine

/-- During INIT, the BUS agent's step for a HOST write is the script's continuation on the freed bus
(43_protocol_encoder.md R212, R225). -/
theorem takeStep_bus_of_init {s : State} {bytes : List Byte} (busy : s.bus = .busy .host bytes) (init : s.hs = .init)
    (r : BusResult) :
    takeStep (.bus r) s = .next (initContinue r { s with bus := .free, trace := s.trace ++ [.done .host r] }) := by
  rw [takeStep_bus_of_busy busy, ownerContinue, hostContinue, init]

/-- During CONTRAST_SET, the BUS agent's step for a HOST write is the pair's continuation on the freed bus
(43_protocol_encoder.md R212, R225). -/
theorem takeStep_bus_of_contrast {s : State} {bytes : List Byte} (busy : s.bus = .busy .host bytes)
    (contrast : s.hs = .contrast) (r : BusResult) :
    takeStep (.bus r) s = .next (contrastContinue r { s with bus := .free, trace := s.trace ++ [.done .host r] }) := by
  rw [takeStep_bus_of_busy busy, ownerContinue, hostContinue, contrast]

/-- Settles O41: the completion is the script's continuation, whose cases for the two answers are the two claims. -/
theorem initWriteContinues : Obligations.InitWriteContinues := fun _ _ busy init =>
  ⟨takeStep_bus_of_init busy init .ok, takeStep_bus_of_init busy init .fail⟩

/-- Settles O47: the completion is the pair's continuation, whose cases for the two answers are the two claims. -/
theorem contrastWriteContinues : Obligations.ContrastWriteContinues := fun _ _ busy contrast =>
  ⟨takeStep_bus_of_contrast busy contrast .ok, takeStep_bus_of_contrast busy contrast .fail⟩

end Sys2Proof.Machine
end

section
/-! The state at reset (70_reset_and_hazards.md R300). -/

namespace Sys2Proof.Machine

/-- An index that nothing has written reads as its free draw (10_state.md R21). -/
@[simp] theorem Memory.read_nil (a : Nat) : Memory.read [] a = Config.dbAtReset a := rfl

/-- Settles O11: each register's reset value, and a Device Bitmap in which nothing is written yet. -/
theorem resetValues : Obligations.ResetValues := by
  refine ⟨?registers, [], ?held, ?contents⟩
  case registers => decide
  case held => rfl
  case contents => exact Memory.read_nil

end Sys2Proof.Machine
end

section
/-! The invariants of a good state (10_state.md sections 2 to 6).  The token and the two formats have theirs above; each of
the other invariants is kept by the WORKER's and the HOST's continuations, by an admission, and so along `Change`. -/

namespace Sys2Proof.Machine

/-! The continuations of a completed write. -/

/-- The WORKER's continuation writes its position, the job's end and `LOG`, and nothing else
(43_protocol_encoder.md R218, R219). -/
theorem workerContinue_frame (r : BusResult) (s : State) :
    workerContinue r s =
      { s with
        fpage := (workerContinue r s).fpage, fslot := (workerContinue r s).fslot
        jobrun := (workerContinue r s).jobrun, fres := (workerContinue r s).fres
        gate := (workerContinue r s).gate, log := (workerContinue r s).log } := by
  rcases workerContinue_cases r s with ⟨-, -, e⟩ | ⟨-, -, -, e⟩ | ⟨-, -, -, e⟩ | ⟨-, e⟩ <;> rw [e] <;> rfl

/-- What no continuation writes. -/
theorem ownerContinue_frame (o : Owner) (r : BusResult) (s : State) :
    ownerContinue o r s =
      { s with
        fpage := (ownerContinue o r s).fpage, fslot := (ownerContinue o r s).fslot
        jobrun := (ownerContinue o r s).jobrun, fres := (ownerContinue o r s).fres
        gate := (ownerContinue o r s).gate, log := (ownerContinue o r s).log
        initok := (ownerContinue o r s).initok, hs := (ownerContinue o r s).hs, hidx := (ownerContinue o r s).hidx
        hres := (ownerContinue o r s).hres, hval := (ownerContinue o r s).hval } := by
  cases o with
  | worker => simp only [ownerContinue]; rw [workerContinue_frame]
  | host => simp only [ownerContinue]; rw [hostContinue_frame]

section
variable (o : Owner) (r : BusResult) (s : State)

@[simp] theorem ownerContinue_db : (ownerContinue o r s).db = s.db := by rw [ownerContinue_frame]
@[simp] theorem ownerContinue_alive : (ownerContinue o r s).alive = s.alive := by rw [ownerContinue_frame]
@[simp] theorem ownerContinue_link : (ownerContinue o r s).link = s.link := by rw [ownerContinue_frame]
@[simp] theorem ownerContinue_armed : (ownerContinue o r s).armed = s.armed := by rw [ownerContinue_frame]
@[simp] theorem ownerContinue_contrast : (ownerContinue o r s).contrast = s.contrast := by rw [ownerContinue_frame]
@[simp] theorem ownerContinue_bus : (ownerContinue o r s).bus = s.bus := by rw [ownerContinue_frame]
@[simp] theorem ownerContinue_trace : (ownerContinue o r s).trace = s.trace := by rw [ownerContinue_frame]
@[simp] theorem ownerContinue_refused : (ownerContinue o r s).refused = s.refused := by rw [ownerContinue_frame]
@[simp] theorem ownerContinue_gateRelease : (ownerContinue o r s).gateRelease = s.gateRelease := by
  rw [ownerContinue_frame]

end

/-! `FSLOT` (10_state.md R28). -/

theorem slotInv_ownerContinue {s : State} (h : SlotInv s) (o : Owner) (r : BusResult) :
    SlotInv (ownerContinue o r s) := by
  cases o with
  | host => rw [ownerContinue, hostContinue_frame]; exact h
  | worker =>
    rcases workerContinue_cases r s with ⟨-, hslot, e⟩ | ⟨-, -, -, e⟩ | ⟨-, -, -, e⟩ | ⟨-, e⟩ <;>
      rw [ownerContinue, e]
    · show (s.fslot + 1).toNat ≤ 10
      bv_omega
    · exact Nat.zero_le _
    · exact h
    · exact h

theorem slotInv_admitJob {s : State} (h : SlotInv s) : SlotInv (admitJob s) := by rwa [SlotInv, admitJob_fslot]

/-- Every change keeps `FSLOT` at most 10: the WORKER's continuation moves it only from below 10, and a job's start
puts it at 0. -/
theorem slotInv_change {s t : State} (c : Change s t) (h : SlotInv s) : SlotInv t := by
  cases c with
  | complete o bytes r busy =>
    exact slotInv_ownerContinue (s := { s with bus := .free, trace := s.trace ++ [.done o r] }) h o r
  | tick | reqFlush => exact slotInv_admitJob h
  | jobStart => exact Nat.zero_le _
  | hold | refuse | issue | raster | cmd | data | init | result | contrast | arm | disarm | teardown | release
  | surface => exact h

/-! The Device Bitmap's memory (20_memory.md R71). -/

/-- Every change keeps the memory canonical: the converter's changes do, the release leaves none, and no other writes it. -/
theorem dbInv_change {s t : State} (c : Change s t) (h : DbInv s) : DbInv t := by
  cases c with
  | complete => intro m hm; exact h m (by simpa using hm)
  | tick | reqFlush => intro m hm; exact h m (by simpa using hm)
  | raster _ _ _ _ m r db wf | jobStart _ _ _ m r db wf =>
    intro m' hm'
    cases hm'
    exact wf (h m db)
  | release => intro m hm; cases hm
  | hold | refuse | issue | cmd | data | init | result | contrast | arm | disarm | teardown | surface => exact h

/-! The trace of whole writes (10_state.md R37, R38). -/

/-- Every change keeps that the trace ends as the bus says: an issue finds the bus free, and a completion is of the
outstanding write's owner. -/
theorem traceInv_change {s t : State} (c : Change s t) (h : TraceInv s) : TraceInv t := by
  have replayed : s.trace.foldl replayEvent (some .free) = some s.bus := h
  cases c with
  | issue o bytes free => simp [TraceInv, replay, replayed, free, replayEvent]
  | complete o bytes r busy => simp [TraceInv, replay, replayed, busy, replayEvent]
  | tick | reqFlush => simpa [TraceInv] using h
  | hold | refuse | raster | cmd | data | init | result | contrast | arm | disarm | teardown | jobStart | release
  | surface => exact h

/-! The outstanding write (10_state.md R41). -/

/-- An idle HOST has no next write. -/
theorem hostNextWrite_of_idle {s : State} (idle : s.hs = .idle) : hostNextWrite s = none := by
  simp [hostNextWrite, idle]

theorem outstandingInv_of_free {s : State} (free : s.bus = .free) : OutstandingInv s := by
  intro o bytes busy
  cases free.symm.trans busy

theorem OutstandingInv.of_same {s t : State} (h : OutstandingInv s) (bus : t.bus = s.bus)
    (worker : workerNextWrite t = workerNextWrite s) (host : hostNextWrite t = hostNextWrite s) : OutstandingInv t := by
  intro o bytes busy
  have due := h o bytes (bus ▸ busy)
  cases o with
  | worker => exact worker.trans due
  | host => exact host.trans due

/-- While the HOST is idle only the WORKER's write can be outstanding. -/
theorem OutstandingInv.of_idle {s t : State} (h : OutstandingInv s) (idle : s.hs = .idle) (bus : t.bus = s.bus)
    (worker : workerNextWrite t = workerNextWrite s) : OutstandingInv t := by
  intro o bytes busy
  have due := h o bytes (bus ▸ busy)
  cases o with
  | worker => exact worker.trans due
  | host => cases (hostNextWrite_of_idle idle).symm.trans due

/-- While no job runs only the HOST's write can be outstanding. -/
theorem OutstandingInv.of_noJob {s t : State} (h : OutstandingInv s) (jobrun : s.jobrun = false) (bus : t.bus = s.bus)
    (host : hostNextWrite t = hostNextWrite s) : OutstandingInv t := by
  intro o bytes busy
  have due := h o bytes (bus ▸ busy)
  cases o with
  | worker => cases (jobrun_of_workerNextWrite due).symm.trans jobrun
  | host => exact host.trans due

theorem outstandingInv_admitJob {s : State} (h : OutstandingInv s) : OutstandingInv (admitJob s) := by
  unfold admitJob
  split_ifs
  · exact h
  · exact h.of_same rfl rfl rfl

/-- Every change keeps that an outstanding write is due at its owner: the HOST's position is written while the HOST is
idle, the WORKER's while no job runs, or at a completion, after which the bus is free. -/
theorem outstandingInv_change {s t : State} (c : Change s t) (h : OutstandingInv s) : OutstandingInv t := by
  cases c with
  | issue o bytes free due =>
    intro o' bytes' busy
    cases busy
    cases o <;> exact due
  | complete => exact outstandingInv_of_free (by simp)
  | tick => exact outstandingInv_admitJob h
  | reqFlush => exact (outstandingInv_admitJob h).of_same rfl rfl rfl
  | raster alive idle jobq jobrun => exact h.of_noJob jobrun rfl rfl
  | jobStart alive jobq jobrun => exact h.of_noJob jobrun rfl rfl
  | cmd alive idle | data alive idle | init alive idle | contrast alive idle | teardown alive idle =>
    exact h.of_idle idle rfl rfl
  | release waits jobq jobrun free => exact outstandingInv_of_free free
  | hold | refuse | result | arm | disarm | surface => exact h.of_same rfl rfl rfl

/-! The host sequencer (10_state.md R35). -/

theorem HostSeqInv.hidx_of_idle {s : State} (h : HostSeqInv s) (idle : s.hs = .idle) : s.hidx = 0 := by
  simpa [HostSeqInv, idle] using h

theorem HostSeqInv.of_init {s : State} (h : HostSeqInv s) (init : s.hs = .init) :
    s.hidx.toNat ≤ 20 ∧ s.harg = [] ∧ s.armed = false ∧ s.jobq = false ∧ s.jobrun = false := by
  simpa only [HostSeqInv, init] using h

theorem HostSeqInv.of_contrast {s : State} (h : HostSeqInv s) (contrast : s.hs = .contrast) :
    s.hidx.toNat ≤ 1 ∧ s.harg = [s.contrast] := by
  simpa only [HostSeqInv, contrast] using h

theorem HostSeqInv.of_teardown {s : State} (h : HostSeqInv s) (teardown : s.hs = .teardown) :
    s.hidx = 0 ∧ s.armed = false := by
  simpa only [HostSeqInv, teardown] using h

theorem hostSeqInv_of_idle {s : State} (idle : s.hs = .idle) (hidx : s.hidx = 0) : HostSeqInv s := by
  simpa only [HostSeqInv, idle] using hidx

theorem hostSeqInv_hostEnd (r : HostResult) (s : State) : HostSeqInv (hostEnd r s) := hostSeqInv_of_idle rfl rfl

theorem hostSeqInv_initContinue {s : State} (h : HostSeqInv s) (init : s.hs = .init) (r : BusResult) :
    HostSeqInv (initContinue r s) := by
  cases r with
  | fail => exact hostSeqInv_hostEnd _ _
  | ok =>
    simp only [initContinue]
    split_ifs with hidx
    · obtain ⟨-, hrest⟩ := h.of_init init
      simp only [HostSeqInv, init]
      exact ⟨by bv_omega, hrest⟩
    · exact hostSeqInv_hostEnd _ _

theorem hostSeqInv_contrastContinue {s : State} (h : HostSeqInv s) (contrast : s.hs = .contrast) (r : BusResult) :
    HostSeqInv (contrastContinue r s) := by
  cases r with
  | fail => exact hostSeqInv_hostEnd _ _
  | ok =>
    simp only [contrastContinue]
    split_ifs
    · obtain ⟨-, hharg⟩ := h.of_contrast contrast
      simpa only [HostSeqInv, contrast] using ⟨Nat.le_refl 1, hharg⟩
    · exact hostSeqInv_hostEnd _ _

theorem hostSeqInv_hostContinue {s : State} (h : HostSeqInv s) (r : BusResult) : HostSeqInv (hostContinue r s) := by
  unfold hostContinue
  split
  · exact hostSeqInv_hostEnd _ _
  · exact hostSeqInv_hostEnd _ _
  · exact hostSeqInv_initContinue h ‹_› r
  · exact hostSeqInv_contrastContinue h ‹_› r
  · exact h
  · exact h

/-- A change that leaves the sequencer, `CONTRAST` and `ARMED` keeps the invariant when INIT still waits for no job. -/
theorem HostSeqInv.of_frame {s t : State} (h : HostSeqInv s)
    (frame : t.hs = s.hs ∧ t.hidx = s.hidx ∧ t.harg = s.harg ∧ t.contrast = s.contrast ∧ t.armed = s.armed)
    (jobs : s.hs = .init → t.jobq = false ∧ t.jobrun = false) : HostSeqInv t := by
  obtain ⟨hs, hidx, harg, contrast, armed⟩ := frame
  unfold HostSeqInv at h ⊢
  rw [hs, hidx, harg, contrast, armed]
  cases hc : s.hs <;> simp_all

theorem hostSeqInv_jobEnd {s : State} (h : HostSeqInv s) (r : FlushResult) : HostSeqInv (jobEnd r s) := by
  refine h.of_frame (by simp) fun init => ?_
  obtain ⟨-, -, -, jobq, -⟩ := h.of_init init
  exact ⟨jobq, rfl⟩

/-- A TICK that is armed does not come during INIT. -/
theorem hostSeqInv_admitJob {s : State} (h : HostSeqInv s) (armed : s.armed = true) : HostSeqInv (admitJob s) := by
  refine h.of_frame (by simp) fun init => ?_
  obtain ⟨-, -, disarmed, -⟩ := h.of_init init
  cases armed.symm.trans disarmed

theorem hostSeqInv_ownerContinue {s : State} (h : HostSeqInv s) (o : Owner) (r : BusResult) :
    HostSeqInv (ownerContinue o r s) := by
  cases o with
  | host => exact hostSeqInv_hostContinue h r
  | worker =>
    rcases workerContinue_cases r s with ⟨-, -, e⟩ | ⟨-, -, -, e⟩ | ⟨-, -, -, e⟩ | ⟨-, e⟩ <;> rw [ownerContinue, e]
    · exact h
    · exact h
    · exact hostSeqInv_jobEnd h _
    · exact hostSeqInv_jobEnd (s := { s with log := s.log ++ [.flushErr s.fpage s.fslot] }) h _

/-- Every change keeps the host sequencer's invariant: an operation of the HOST starts from idle, an armed TICK and the
start of a queued job come outside INIT, and a completion of the HOST moves within the sequence or ends it. -/
theorem hostSeqInv_change {s t : State} (c : Change s t) (h : HostSeqInv s) : HostSeqInv t := by
  cases c with
  | complete o bytes r busy =>
    exact hostSeqInv_ownerContinue (s := { s with bus := .free, trace := s.trace ++ [.done o r] }) h o r
  | tick alive armed => exact hostSeqInv_admitJob h armed
  | reqFlush alive idle => exact hostSeqInv_of_idle (by simpa using idle) (by simpa using h.hidx_of_idle idle)
  | cmd | data => exact rfl
  | init alive idle armed jobq jobrun => exact ⟨Nat.zero_le _, rfl, armed, jobq, jobrun⟩
  | contrast => exact ⟨Nat.zero_le _, rfl⟩
  | arm alive idle | disarm alive idle => exact hostSeqInv_of_idle idle (h.hidx_of_idle idle)
  | teardown alive idle => exact ⟨h.hidx_of_idle idle, rfl⟩
  | jobStart alive jobq jobrun =>
    refine h.of_frame ⟨rfl, rfl, rfl, rfl, rfl⟩ fun init => ?_
    obtain ⟨-, -, -, noneQueued, -⟩ := h.of_init init
    cases jobq.symm.trans noneQueued
  | release waits => exact hostSeqInv_of_idle rfl (h.of_teardown waits).1
  | hold | refuse | issue | raster | result | surface => exact h

/-! `ARMED` after INIT (41_scheduler_dispatcher.md R150). -/

/-- Only INIT's continuation writes `INITOK`. -/
theorem ownerContinue_initok {s : State} (o : Owner) (r : BusResult) (hinit : s.hs ≠ .init) :
    (ownerContinue o r s).initok = s.initok := by
  cases o with
  | worker => rw [ownerContinue, workerContinue_frame]
  | host =>
    simp only [ownerContinue, hostContinue]
    split
    · rfl
    · rfl
    · exact absurd ‹_› hinit
    · cases r with
      | fail => rfl
      | ok => simp only [contrastContinue]; split_ifs <;> rfl
    · rfl
    · rfl

/-- Every change keeps that `ARMED` means an INIT that succeeded: INIT runs disarmed, from its presenting step to its
end. -/
theorem armedInv_change {s t : State} (c : Change s t) (h : ArmedInv s) (seq : HostSeqInv s) : ArmedInv t := by
  cases c with
  | complete o bytes r busy =>
    intro armed
    have armed : s.armed = true := by simpa using armed
    have hinit : s.hs ≠ .init := fun hs => by
      obtain ⟨-, -, disarmed, -⟩ := seq.of_init hs
      cases armed.symm.trans disarmed
    rw [ownerContinue_initok (s := { s with bus := .free, trace := s.trace ++ [.done o r] }) o r hinit]
    exact h armed
  | tick | reqFlush => intro armed; simpa using h (by simpa using armed)
  | init alive idle armed => intro harmed; cases armed.symm.trans harmed
  | arm alive idle initok => exact fun _ => initok
  | disarm | teardown => intro armed; cases armed
  | hold | refuse | issue | raster | cmd | data | result | contrast | jobStart | release | surface => exact h

/-! The release (41_scheduler_dispatcher.md R153, R154). -/

theorem ReleaseInv.of_alive {s : State} (h : ReleaseInv s) (alive : s.alive = true) :
    s.link = true ∧ s.db.isSome = true := by
  simpa [ReleaseInv, alive] using h

theorem ReleaseInv.of_released {s : State} (h : ReleaseInv s) (released : s.alive = false) :
    s.link = false ∧ s.db = none ∧ s.armed = false ∧ s.jobq = false ∧ s.jobrun = false ∧ s.bus = .free ∧
      s.hs = .idle := by
  simpa [ReleaseInv, released] using h

/-- A change of a block that holds its resources keeps the invariant when it leaves them held. -/
theorem ReleaseInv.of_held {s t : State} (h : ReleaseInv s) (alive : s.alive = true)
    (frame : t.alive = s.alive ∧ t.link = s.link) (db : t.db.isSome = s.db.isSome) : ReleaseInv t := by
  obtain ⟨halive, hlink⟩ := frame
  rw [ReleaseInv, halive, if_pos alive, hlink, db]
  exact h.of_alive alive

/-- No write is due in a released block. -/
theorem ReleaseInv.alive_of_due {s : State} {o : Owner} {bytes : List Byte} (h : ReleaseInv s)
    (due : nextWrite o s = some bytes) : s.alive = true := by
  by_contra halive
  have released : s.alive = false := by simpa using halive
  obtain ⟨-, -, -, -, -, -, idle⟩ := h.of_released released
  cases o with
  | worker => simp [nextWrite, workerNextWrite, released] at due
  | host => cases (hostNextWrite_of_idle idle).symm.trans due

/-- No write is outstanding in a released block. -/
theorem ReleaseInv.alive_of_busy {s : State} {o : Owner} {bytes : List Byte} (h : ReleaseInv s)
    (busy : s.bus = .busy o bytes) : s.alive = true := by
  by_contra halive
  obtain ⟨-, -, -, -, -, free, -⟩ := h.of_released (by simpa using halive)
  cases free.symm.trans busy

/-- Every change keeps the release order: but for the release and what a released block can do, a change comes with
`ALIVE = 1` and leaves the resources held; the release finds the scheduler disarmed by TEARDOWN. -/
theorem releaseInv_change {s t : State} (c : Change s t) (h : ReleaseInv s) (seq : HostSeqInv s) : ReleaseInv t := by
  cases c with
  | issue o bytes free due => exact h.of_held (h.alive_of_due due) ⟨rfl, rfl⟩ rfl
  | complete o bytes r busy => exact h.of_held (h.alive_of_busy busy) (by simp) (by simp)
  | tick alive | reqFlush alive => exact h.of_held alive (by simp) (by simp)
  | raster alive _ _ _ _ _ db | jobStart alive _ _ _ _ db => exact h.of_held alive ⟨rfl, rfl⟩ (by simp [db])
  | cmd alive | data alive | init alive | result alive | contrast alive | arm alive | disarm alive
  | teardown alive => exact h.of_held alive ⟨rfl, rfl⟩ rfl
  | release waits jobq jobrun free => exact ⟨rfl, rfl, (seq.of_teardown waits).2, jobq, jobrun, free, rfl⟩
  | hold | refuse | surface => exact h

/-! All of them together. -/

theorem good_change {s t : State} (c : Change s t) (h : Good s) : Good t where
  token := tokenInv_change c h.token
  slot := slotInv_change c h.slot
  db := dbInv_change c h.db
  format := formatInv_change c h.format
  trace := traceInv_change c h.trace
  outstanding := outstandingInv_change c h.outstanding
  hostSeq := hostSeqInv_change c h.hostSeq
  armed := armedInv_change c h.armed h.hostSeq
  release := releaseInv_change c h.release h.hostSeq

/-- The fields that the model holds beside the block's own say nothing of a good state (logs 1 and 2). -/
theorem Good.with_model_fields {s : State} (h : Good s) (a : Issuer) (p : List AgentStep) (d : Nat) :
    Good { s with actor := a, pending := p, draws := d } :=
  ⟨h.token, h.slot, h.db, h.format, h.trace, h.outstanding.of_same rfl rfl rfl, h.hostSeq, h.armed, h.release⟩

/-- Settles O53: a step makes one of the changes of `Change`, and each keeps every invariant. -/
theorem goodStatesStayGood : Obligations.GoodStatesStayGood := by
  intro s t h hstep
  obtain ⟨a, p, d, hc⟩ := change_step hstep
  exact good_change hc (h.with_model_fields a p d)

/-- Settles O12: each invariant reads fixed values of the reset state. -/
theorem resetIsGood : Obligations.ResetIsGood where
  token := ⟨fun _ => ⟨rfl, rfl⟩, fun _ => rfl, fun _ _ => Bus.noConfusion⟩
  slot := Nat.zero_le _
  db := by
    intro m hm
    cases hm
    exact Memory.wf_nil
  format := ⟨fun _ _ h => absurd h List.not_mem_nil, by simp [State.reset]⟩
  trace := rfl
  outstanding := outstandingInv_of_free rfl
  hostSeq := rfl
  armed := fun h => by cases h
  release := ⟨rfl, rfl⟩

end Sys2Proof.Machine
end

section
/-! The encoder and the decoder of an operation word, field by field (30_encoding.md R90 to R98).  A field is a quotient
and a remainder of the word's number (`toNat_field`), and the encoder's word is a sum of fields. -/

namespace Sys2Proof

open Machine

/-- `w[lo+n-1 : lo]` as a number. -/
theorem toNat_field (w : OpWord) (lo n : Nat) : (field w lo n).toNat = w.toNat / 2 ^ lo % 2 ^ n := by
  rw [field, BitVec.extractLsb'_toNat, Nat.shiftRight_eq_div_pow]

theorem field_eq_of_toNat {w : OpWord} {lo n : Nat} {v : BitVec n} (h : w.toNat / 2 ^ lo % 2 ^ n = v.toNat) :
    field w lo n = v := BitVec.eq_of_toNat_eq ((toNat_field w lo n).trans h)

theorem toNat_of_field_eq {w : OpWord} {lo n : Nat} {v : BitVec n} (h : field w lo n = v) :
    w.toNat / 2 ^ lo % 2 ^ n = v.toNat := by rw [← h, toNat_field]

/-- The word of a code and its fields is packed when their numbers add up to its own. -/
theorem packWord_eq {w : OpWord} {opc fields : Nat} (h : opc + fields = w.toNat) : packWord opc fields = .word w := by
  rw [packWord, h, BitVec.ofNat_toNat, BitVec.setWidth_eq]

/-! From a word to its instruction and back. -/

theorem encode_of_decodeNoOperand {w : OpWord} {i j : Instr} {c : BitVec 4} (opc : field w 0 4 = c)
    (code : encode i = packWord c.toNat 0) (h : decodeNoOperand w i = .ok j) : encode j = .word w := by
  unfold decodeNoOperand at h
  split_ifs at h with hzero
  cases h
  have h0 := toNat_of_field_eq opc
  have h1 := toNat_of_field_eq hzero
  exact code.trans (packWord_eq (by simp at *; omega))

theorem encode_of_decodePixel {w : OpWord} {i : Instr} (opc : field w 0 4 = 3) (h : decodePixel w = .ok i) :
    encode i = .word w := by
  have h0 := toNat_of_field_eq opc
  have hmode := toNat_field w 4 2
  unfold decodePixel at h
  split_ifs at h with h3 hzero hset hclear <;> cases h
  · exact packWord_eq (by simp [toNat_field, h3] at *; omega)
  all_goals
    obtain ⟨h6, h48⟩ := hzero
    have h6 := toNat_of_field_eq h6
    have h48 := toNat_of_field_eq h48
  · exact packWord_eq (by simp [toNat_field, hset] at *; omega)
  · exact packWord_eq (by simp [toNat_field, hclear] at *; omega)
  · have htoggle : field w 4 2 = 2 := by
      generalize field w 4 2 = mode at hset hclear h3
      decide +revert
    exact packWord_eq (by simp [toNat_field, htoggle] at *; omega)

theorem encode_of_decodeCmd {w : OpWord} {i : Instr} (opc : field w 0 4 = 6) (h : decodeCmd w = .ok i) :
    encode i = .word w := by
  unfold decodeCmd at h
  split_ifs at h with hzero
  cases h
  obtain ⟨h4, h16⟩ := hzero
  have h0 := toNat_of_field_eq opc
  have h4 := toNat_of_field_eq h4
  have h16 := toNat_of_field_eq h16
  exact packWord_eq (by simp [toNat_field] at *; omega)

theorem encode_of_decodeData {w : OpWord} {i : Instr} (opc : field w 0 4 = 7) (h : decodeData w = .ok i) :
    encode i = .word w := by
  unfold decodeData at h
  split_ifs at h with hzero
  cases h
  obtain ⟨h4, h14, h16⟩ := hzero
  have h0 := toNat_of_field_eq opc
  have h4 := toNat_of_field_eq h4
  have h14 := toNat_of_field_eq h14
  have h16 := toNat_of_field_eq h16
  exact packWord_eq (by simp [toNat_field] at *; omega)

/-- A bit read as `NN` and written back. -/
theorem toNat_decide_eq_one (b : BitVec 1) : (decide (b = 1)).toNat = b.toNat := by decide +revert

theorem encode_of_decodeContrastSet {w : OpWord} {i : Instr} (opc : field w 0 4 = 0xA)
    (h : decodeContrastSet w = .ok i) : encode i = .word w := by
  unfold decodeContrastSet at h
  split_ifs at h with hzero
  cases h
  obtain ⟨h4, h7, h8, h48⟩ := hzero
  have h0 := toNat_of_field_eq opc
  have h4 := toNat_of_field_eq h4
  have h7 := toNat_of_field_eq h7
  have h8 := toNat_of_field_eq h8
  have h48 := toNat_of_field_eq h48
  rw [encode, toNat_decide_eq_one]
  exact packWord_eq (by simp [toNat_field] at *; omega)

theorem field_eq_ofNat {w : OpWord} {lo n k : Nat} (h : (field w lo n).toNat = k) : field w lo n = BitVec.ofNat n k := by
  rw [← h, BitVec.ofNat_toNat, BitVec.setWidth_eq]

/-- Settles O3: along the decoder's codes, each form by its fields. -/
theorem decodedWordIsItsEncoding : Obligations.DecodedWordIsItsEncoding := by
  intro w i h
  unfold decodeWord at h
  split at h
  case h_1 hn =>
    cases h
    rw [toNat_field] at hn
    exact packWord_eq (by simp [toNat_field] at *; omega)
  case h_4 hn => exact encode_of_decodePixel (field_eq_ofNat hn) h
  case h_7 hn => exact encode_of_decodeCmd (field_eq_ofNat hn) h
  case h_8 hn => exact encode_of_decodeData (field_eq_ofNat hn) h
  case h_11 hn => exact encode_of_decodeContrastSet (field_eq_ofNat hn) h
  case h_16 =>
    cases h
    simp only [imp_false] at *
    have hn : (field w 0 4).toNat = 15 := by omega
    rw [toNat_field] at hn
    exact packWord_eq (by simp [toNat_field] at *; omega)
  all_goals exact encode_of_decodeNoOperand (field_eq_ofNat ‹_›) rfl h

/-! From an instruction to its word and back. -/

/-- The packed number is the word's own when it fits. -/
theorem toNat_packed {n : Nat} (h : n < 2 ^ 64) : (BitVec.ofNat 64 n).toNat = n := by
  rw [BitVec.toNat_ofNat, Nat.mod_eq_of_lt h]

theorem decodeEncoded_encodePixel {mode : BitVec 2} (known : mode ≠ 3) (x y : BitVec 16) :
    decodeEncoded (encodePixel mode.toNat x y) =
      .ok (if mode = 0 then .pixelSet x y else if mode = 1 then .pixelClear x y else .pixelToggle x y) := by
  obtain ⟨w, hpack, hw⟩ : ∃ w : OpWord, encodePixel mode.toNat x y = .word w ∧
      w.toNat = 3 + (mode.toNat * 2 ^ 4 + x.toNat * 2 ^ 16 + y.toNat * 2 ^ 32) :=
    ⟨_, rfl, toNat_packed (by omega)⟩
  have hx : field w 16 16 = x := field_eq_of_toNat (by omega)
  have hy : field w 32 16 = y := field_eq_of_toNat (by omega)
  have fields : field w 0 4 = 3 ∧ field w 4 2 = mode ∧ field w 6 10 = 0 ∧ field w 48 16 = 0 :=
    ⟨field_eq_of_toNat (by simp; omega), field_eq_of_toNat (by omega), field_eq_of_toNat (by simp; omega),
      field_eq_of_toNat (by simp; omega)⟩
  rw [hpack, decodeEncoded, decodeWord_of_pixel_mask known (pixel_fields_iff.1 fields), hx, hy]

theorem decodeEncoded_cmd (c : Byte) : decodeEncoded (encode (.cmd c)) = .ok (.cmd c) := by
  obtain ⟨w, hpack, hw⟩ : ∃ w : OpWord, encode (.cmd c) = .word w ∧ w.toNat = 6 + c.toNat * 2 ^ 8 :=
    ⟨_, rfl, toNat_packed (by omega)⟩
  have hc : field w 8 8 = c := field_eq_of_toNat (by omega)
  have fields : field w 0 4 = 6 ∧ field w 4 4 = 0 ∧ field w 16 48 = 0 :=
    ⟨field_eq_of_toNat (by simp; omega), field_eq_of_toNat (by simp; omega), field_eq_of_toNat (by simp; omega)⟩
  rw [hpack, decodeEncoded, decodeWord_of_cmd_mask (cmd_fields_iff.1 fields), hc]

theorem decodeEncoded_data (p k : BitVec 3) : decodeEncoded (encode (.data p k)) = .ok (.data p k) := by
  obtain ⟨w, hpack, hw⟩ : ∃ w : OpWord, encode (.data p k) = .word w ∧
      w.toNat = 7 + (p.toNat * 2 ^ 8 + k.toNat * 2 ^ 11) :=
    ⟨_, rfl, toNat_packed (by omega)⟩
  have hp : field w 8 3 = p := field_eq_of_toNat (by omega)
  have hk : field w 11 3 = k := field_eq_of_toNat (by omega)
  have fields : field w 0 4 = 7 ∧ field w 4 4 = 0 ∧ field w 14 2 = 0 ∧ field w 16 48 = 0 :=
    ⟨field_eq_of_toNat (by simp; omega), field_eq_of_toNat (by simp; omega), field_eq_of_toNat (by simp; omega),
      field_eq_of_toNat (by simp; omega)⟩
  rw [hpack, decodeEncoded, decodeWord_of_data_mask (data_fields_iff.1 fields), hp, hk]

theorem decodeEncoded_contrastSet (v : BitVec 32) (nn : Bool) :
    decodeEncoded (encode (.contrastSet v nn)) = .ok (.contrastSet v nn) := by
  have hnn := nn.toNat_le
  obtain ⟨w, hpack, hw⟩ : ∃ w : OpWord, encode (.contrastSet v nn) = .word w ∧
      w.toNat = 10 + (nn.toNat * 2 ^ 6 + v.toNat * 2 ^ 16) :=
    ⟨_, rfl, toNat_packed (by omega)⟩
  have hv : field w 16 32 = v := field_eq_of_toNat (by omega)
  have hbit : field w 6 1 = BitVec.ofBool nn := field_eq_of_toNat (by rw [BitVec.toNat_ofBool]; omega)
  have hnumeric : decide (BitVec.ofBool nn = 1) = nn := by cases nn <;> rfl
  have fields : field w 0 4 = 0xA ∧ field w 4 2 = 0 ∧ field w 7 1 = 0 ∧ field w 8 8 = 0 ∧ field w 48 16 = 0 :=
    ⟨field_eq_of_toNat (by simp; omega), field_eq_of_toNat (by simp; omega), field_eq_of_toNat (by simp; omega),
      field_eq_of_toNat (by simp; omega), field_eq_of_toNat (by simp; omega)⟩
  rw [hpack, decodeEncoded, decodeWord_of_contrastSet_mask (contrastSet_fields_iff.1 fields), hv, hbit, hnumeric]

/-! The reserved words (30_encoding.md R98). -/

theorem decodeWord_of_opc0 {w : OpWord} (h : field w 0 4 = 0x0) : decodeWord w = .ok (.reservedOpc0 (field w 4 60)) := by
  simp [decodeWord, h]

theorem decodeWord_of_opcF {w : OpWord} (h : field w 0 4 = 0xF) : decodeWord w = .ok (.reservedOpcF (field w 4 60)) := by
  simp [decodeWord, h]

theorem decodeWord_of_pixelMode3 {w : OpWord} (opc : field w 0 4 = 0x3) (mode : field w 4 2 = 3) :
    decodeWord w = .ok (.reservedPixelMode3 (field w 6 58)) := by
  simp [decodeWord, opc, decodePixel, mode]

/-- Settles O6: the decoder looks at the code and the mode alone, and the meaning is the refusal. -/
theorem reservedWordsAreRefused : Obligations.ReservedWordsAreRefused :=
  ⟨fun _ => decodeWord_of_opc0, fun _ => decodeWord_of_opcF, fun _ => decodeWord_of_pixelMode3, fun _ _ => rfl,
    fun _ _ => rfl, fun _ _ => rfl⟩

theorem decodeEncoded_reservedOpc0 (rest : BitVec 60) :
    decodeEncoded (encode (.reservedOpc0 rest)) = .ok (.reservedOpc0 rest) := by
  obtain ⟨w, hpack, hw⟩ : ∃ w : OpWord, encode (.reservedOpc0 rest) = .word w ∧ w.toNat = 0 + rest.toNat * 2 ^ 4 :=
    ⟨_, rfl, toNat_packed (by omega)⟩
  have hrest : field w 4 60 = rest := field_eq_of_toNat (by omega)
  have opc : field w 0 4 = 0 := field_eq_of_toNat (by simp; omega)
  rw [hpack, decodeEncoded, decodeWord_of_opc0 opc, hrest]

theorem decodeEncoded_reservedOpcF (rest : BitVec 60) :
    decodeEncoded (encode (.reservedOpcF rest)) = .ok (.reservedOpcF rest) := by
  obtain ⟨w, hpack, hw⟩ : ∃ w : OpWord, encode (.reservedOpcF rest) = .word w ∧ w.toNat = 15 + rest.toNat * 2 ^ 4 :=
    ⟨_, rfl, toNat_packed (by omega)⟩
  have hrest : field w 4 60 = rest := field_eq_of_toNat (by omega)
  have opc : field w 0 4 = 0xF := field_eq_of_toNat (by simp; omega)
  rw [hpack, decodeEncoded, decodeWord_of_opcF opc, hrest]

theorem decodeEncoded_reservedPixelMode3 (rest : BitVec 58) :
    decodeEncoded (encode (.reservedPixelMode3 rest)) = .ok (.reservedPixelMode3 rest) := by
  obtain ⟨w, hpack, hw⟩ : ∃ w : OpWord, encode (.reservedPixelMode3 rest) = .word w ∧
      w.toNat = 3 + (3 * 2 ^ 4 + rest.toNat * 2 ^ 6) :=
    ⟨_, rfl, toNat_packed (by omega)⟩
  have hrest : field w 6 58 = rest := field_eq_of_toNat (by omega)
  have opc : field w 0 4 = 3 := field_eq_of_toNat (by simp; omega)
  have mode : field w 4 2 = 3 := field_eq_of_toNat (by simp; omega)
  rw [hpack, decodeEncoded, decodeWord_of_pixelMode3 opc mode, hrest]

/-! The bus writes (30_encoding.md R101 to R123). -/

theorem decodeEncoded_encodeCommand (c : Byte) : decodeEncoded (encodeCommand c) = .ok (commandRow c) := rfl

/-- A page-select byte is read as its page (R103). -/
theorem commandRow_pageSelect (p : BitVec 3) : commandRow (pageSelect p) = .cbSelectPage p := by decide +revert

theorem decodeEncoded_dataw {bs : List Byte} (wf : WellFormed (.dataw bs) = true) :
    decodeEncoded (encode (.dataw bs)) = .ok (.dataw bs) :=
  decodeWrite_eq_ok_iff.2 (.inr ⟨bs, rfl, by simpa [WellFormed] using wf, rfl⟩)

/-- Settles O2: along the instructions, each form by the fields of its word or the bytes of its write. -/
theorem encodeThenDecode : Obligations.EncodeThenDecode := by
  intro i wf
  cases i with
  | pixelSet x y => exact decodeEncoded_encodePixel (mode := 0) (by decide) x y
  | pixelClear x y => exact decodeEncoded_encodePixel (mode := 1) (by decide) x y
  | pixelToggle x y => exact decodeEncoded_encodePixel (mode := 2) (by decide) x y
  | cmd c => exact decodeEncoded_cmd c
  | data p k => exact decodeEncoded_data p k
  | contrastSet v nn => exact decodeEncoded_contrastSet v nn
  | reservedOpc0 rest => exact decodeEncoded_reservedOpc0 rest
  | reservedOpcF rest => exact decodeEncoded_reservedOpcF rest
  | reservedPixelMode3 rest => exact decodeEncoded_reservedPixelMode3 rest
  | cmdw c => exact decodeEncoded_encodeCommand c
  | dataw bs => exact decodeEncoded_dataw wf
  | cbSelectPage p => exact congrArg Except.ok (commandRow_pageSelect p)
  | _ => rfl

/-- Settles O1: each word's code and fields, and each write's row. -/
theorem specWordsDecode : Obligations.SpecWordsDecode :=
  ⟨rfl, rfl, rfl, rfl, rfl, rfl, rfl, rfl, rfl, rfl, rfl, rfl, rfl, rfl⟩

end Sys2Proof
end

section
/-! The frame of each operation (10_state.md R42).  By the checks before it (60_exceptions.md R281, R283) an operation is
refused or it is done, and each case leaves the rest of the state. -/

namespace Sys2Proof.Machine

/-! The checks. -/

theorem agentDo_inversion {a : Issuer} {s t : State} {f : State → State} (h : agentDo a s f = .next t) :
    (∃ r, t = refuse r s) ∨ (s.alive = true ∧ s.actor = a ∧ t = f s) := by
  rw [agentDo_eq] at h
  cases h
  split_ifs with h1 h2
  · exact .inl ⟨_, rfl⟩
  · exact .inr ⟨by simpa using h1, h2, rfl⟩
  · exact .inl ⟨_, rfl⟩

theorem hostDo_inversion {s t : State} {f : State → State} (h : hostDo s f = .next t) :
    (∃ r, t = refuse r s) ∨ (HostReady s ∧ t = f s) := by
  rw [hostDo_eq] at h
  cases h
  split_ifs with h1 h2 h3
  · exact .inl ⟨_, rfl⟩
  · exact .inl ⟨_, rfl⟩
  · exact .inl ⟨_, rfl⟩
  · exact .inr ⟨⟨not_not.1 h2, by simpa using h1, not_not.1 h3⟩, rfl⟩

theorem withDb_inversion (s : State) (f : Memory → State) :
    (∃ r, withDb s f = refuse r s) ∨ ∃ m, s.db = some m ∧ withDb s f = f m := by
  rcases withDb_cases s f with ⟨-, e⟩ | h
  · exact .inl ⟨_, e⟩
  · exact .inr h

theorem hostDb_inversion {s t : State} {f : State → Memory → State} (h : hostDb s f = .next t) :
    (∃ r, t = refuse r s) ∨ ∃ m, HostDbReady s m ∧ t = f s m := by
  obtain h | ⟨ready, rfl⟩ := hostDo_inversion h
  · exact .inl h
  · split_ifs with hjob
    · exact .inl ⟨_, rfl⟩
    · simp only [Bool.or_eq_true, not_or, Bool.not_eq_true] at hjob
      obtain ⟨r, e⟩ | ⟨m, hm, e⟩ := withDb_inversion s (f s)
      · exact .inl ⟨r, e⟩
      · exact .inr ⟨m, ⟨ready, hjob.1, hjob.2, hm⟩, e⟩

/-- A bus row is executed as its sender's issue of the bytes it is encoded as (log 10). -/
theorem exec_of_encode_bytes {i : Instr} {bytes : List Byte} (h : encode i = .bytes bytes) (s : State) :
    exec i s = issueWrite bytes s := by
  cases i <;> cases h <;> rfl

/-! TICK, REQ_FLUSH, ARM, DISARM, TEARDOWN, CONTRAST_GET. -/

/-- An admission writes the token and the queue. -/
theorem admitJob_frame (s : State) :
    admitJob s = { s with gate := (admitJob s).gate, jobq := (admitJob s).jobq } := by
  unfold admitJob
  split_ifs <;> rfl

theorem execTick_frame {s t : State} (h : execTick s = .next t) :
    t = { s with gate := t.gate, jobq := t.jobq, refused := t.refused, reason := t.reason } := by
  obtain ⟨r, rfl⟩ | ⟨-, -, rfl⟩ := agentDo_inversion h
  · rfl
  · split_ifs
    · rw [admitJob_frame]
    · rfl
    · rfl

theorem execReqFlush_frame {s t : State} (h : execReqFlush s = .next t) :
    t = { s with
      gate := t.gate, jobq := t.jobq, hres := t.hres, hval := t.hval, refused := t.refused, reason := t.reason } := by
  obtain ⟨r, rfl⟩ | ⟨-, rfl⟩ := hostDo_inversion h
  · rfl
  · rw [admitJob_frame]
    rfl

theorem execArm_frame {s t : State} (h : execArm s = .next t) :
    t = { s with armed := t.armed, hres := t.hres, hval := t.hval, refused := t.refused, reason := t.reason } := by
  obtain ⟨r, rfl⟩ | ⟨-, rfl⟩ := hostDo_inversion h
  · rfl
  · split_ifs <;> rfl

theorem execDisarm_frame {s t : State} (h : execDisarm s = .next t) :
    t = { s with armed := t.armed, hres := t.hres, hval := t.hval, refused := t.refused, reason := t.reason } := by
  obtain ⟨r, rfl⟩ | ⟨-, rfl⟩ := hostDo_inversion h <;> rfl

theorem execTeardown_frame {s t : State} (h : execTeardown s = .next t) :
    t = { s with armed := t.armed, hs := t.hs, refused := t.refused, reason := t.reason } := by
  obtain ⟨r, rfl⟩ | ⟨-, rfl⟩ := hostDo_inversion h <;> rfl

theorem execContrastGet_frame {s t : State} (h : execContrastGet s = .next t) :
    t = { s with hres := t.hres, hval := t.hval, refused := t.refused, reason := t.reason } := by
  obtain ⟨r, rfl⟩ | ⟨-, rfl⟩ := hostDo_inversion h <;> rfl

/-- Settles O48: each operation's frame. -/
theorem controlFrame : Obligations.ControlFrame := fun _ _ =>
  ⟨execTick_frame, execReqFlush_frame, fun h => h.elim execArm_frame execDisarm_frame, execTeardown_frame,
    execContrastGet_frame⟩

/-! The PIXEL operations, SYNC and JOB_START. -/

theorem hostPixel_frame {mode : PixelMode} {x y : BitVec 16} {s t : State} (h : hostPixel mode x y s = .next t) :
    t = { s with
      db := t.db, log := t.log, hres := t.hres, hval := t.hval, refused := t.refused, reason := t.reason } := by
  obtain ⟨r, rfl⟩ | ⟨m, -, rfl⟩ := hostDb_inversion h <;> rfl

/-- A pixel operation leaves every byte of `DB` but its own (42_pixel_packing.md R183). -/
theorem read_pixelOp_other {mode : PixelMode} {x y : Int} {r : Raster} {a : Nat}
    (h : inBounds x y = false ∨ a ≠ dbIndex x.toNat y.toNat) :
    Memory.read (pixelOp mode x y r).db a = Memory.read r.db a := by
  unfold pixelOp
  split_ifs with hin
  · exact Memory.read_write_other _ _ (h.resolve_left (by simp [hin]))
  · rfl

theorem hostPixel_keeps_other_bytes {mode : PixelMode} {x y : BitVec 16} {s t : State} {m : Memory}
    (h : hostPixel mode x y s = .next t) (hm : s.db = some m) :
    ∃ m', t.db = some m' ∧ ∀ a, a ≠ dbIndex x.toInt.toNat y.toInt.toNat → Memory.read m' a = Memory.read m a := by
  obtain ⟨r, rfl⟩ | ⟨m', ⟨-, -, -, hm'⟩, rfl⟩ := hostDb_inversion h
  · exact ⟨m, hm, fun _ _ => rfl⟩
  · cases hm.symm.trans hm'
    exact ⟨_, rfl, fun a ha => read_pixelOp_other (.inr ha)⟩

theorem execSync_frame {s t : State} (h : execSync s = .next t) :
    t = { s with
      db := t.db, log := t.log, hres := t.hres, hval := t.hval, refused := t.refused, reason := t.reason } := by
  obtain ⟨r, rfl⟩ | ⟨m, -, rfl⟩ := hostDb_inversion h
  · rfl
  · split <;> rfl

/-- JOB_START is refused, holds, or starts the queued job on what the pixel loop leaves (41_scheduler_dispatcher.md
R146). -/
theorem execJobStart_inversion {s t : State} (h : execJobStart s = .next t) :
    (∃ r, t = refuse r s) ∨ t = s ∨ ∃ m, s.db = some m ∧ t = { s with
      jobq := false, jobrun := true, gate := gateAtStart s, db := some (syncLoop s.surf ⟨m, s.log⟩).db
      log := (syncLoop s.surf ⟨m, s.log⟩).log, fpage := 0, fslot := 0 } := by
  obtain h | ⟨-, -, rfl⟩ := agentDo_inversion h
  · exact .inl h
  · split_ifs
    · rcases withDb_inversion s _ with ⟨r, e⟩ | ⟨m, hm, e⟩
      · exact .inl ⟨r, e⟩
      · rw [e, syncBody]
        split_ifs
        · exact .inr (.inr ⟨m, hm, rfl⟩)
        · exact .inl ⟨_, rfl⟩
    · exact .inr (.inl rfl)

theorem execJobStart_frame {s t : State} (h : execJobStart s = .next t) :
    t = { s with
      db := t.db, log := t.log, jobq := t.jobq, jobrun := t.jobrun, gate := t.gate, fpage := t.fpage
      fslot := t.fslot, refused := t.refused, reason := t.reason } := by
  obtain ⟨r, rfl⟩ | rfl | ⟨m, -, rfl⟩ := execJobStart_inversion h <;> rfl

/-- SYNC is refused, or the pixel loop is done and reported (42_pixel_packing.md R188). -/
theorem execSync_inversion {s t : State} (h : execSync s = .next t) :
    (∃ r, t = refuse r s) ∨ ∃ m, s.db = some m ∧ t = putRaster s (syncLoop s.surf ⟨m, s.log⟩) := by
  obtain h | ⟨m, ⟨-, -, -, hm⟩, rfl⟩ := hostDb_inversion h
  · exact .inl h
  · rw [syncBody]
    split_ifs
    · exact .inr ⟨m, hm, rfl⟩
    · exact .inl ⟨_, rfl⟩

/-- SYNC and JOB_START leave the Device Bitmap, or what the pixel loop makes of it. -/
theorem db_of_sync_or_jobStart {s t : State} {m : Memory} (h : execSync s = .next t ∨ execJobStart s = .next t)
    (hm : s.db = some m) : t.db = some m ∨ t.db = some (syncLoop s.surf ⟨m, s.log⟩).db := by
  rcases h with h | h
  · obtain ⟨r, rfl⟩ | ⟨m', hm', rfl⟩ := execSync_inversion h
    · exact .inl hm
    · cases hm.symm.trans hm'
      exact .inr rfl
  · obtain ⟨r, rfl⟩ | rfl | ⟨m', hm', rfl⟩ := execJobStart_inversion h
    · exact .inl hm
    · exact .inl hm
    · cases hm.symm.trans hm'
      exact .inr rfl

/-- Settles O49: each operation's frame, the byte of a PIXEL operation, and the pixels of the loop. -/
theorem converterFrame : Obligations.ConverterFrame := by
  intro s t x y
  refine ⟨fun h => ?pixel, execSync_frame, execJobStart_frame, fun h m hm => ?loop⟩
  case pixel =>
    obtain ⟨mode, h⟩ : ∃ mode, hostPixel mode x y s = .next t := by
      rcases h with h | h | h
      exacts [⟨.set, h⟩, ⟨.clear, h⟩, ⟨.toggle, h⟩]
    exact ⟨hostPixel_frame h, fun m hm => hostPixel_keeps_other_bytes h hm⟩
  case loop =>
    rcases db_of_sync_or_jobStart h hm with hdb | hdb
    · exact ⟨m, hdb, fun _ _ _ _ _ => rfl⟩
    · refine ⟨_, hdb, fun x' y' hx hy houtside => ?_⟩
      rw [readPixel_syncLoop hx hy, if_neg (by omega)]

/-! The senders' operations. -/

theorem issueNext_frame (o : Owner) (s : State) :
    issueNext o s = { s with bus := (issueNext o s).bus, trace := (issueNext o s).trace } := by
  rcases issueNext_cases o s with ⟨bytes, -, -, e⟩ | e
  · rw [e]; rfl
  · rw [e]

theorem execFlushStep_frame {s t : State} (h : execFlushStep s = .next t) :
    t = { s with bus := t.bus, trace := t.trace, refused := t.refused, reason := t.reason } := by
  obtain ⟨r, rfl⟩ | ⟨-, -, rfl⟩ := agentDo_inversion h
  · rfl
  · rw [issueNext_frame]

theorem issueWrite_frame {bytes : List Byte} {s t : State} (h : issueWrite bytes s = .next t) :
    t = { s with bus := t.bus, trace := t.trace, refused := t.refused, reason := t.reason } := by
  rcases issueWrite_cases bytes s with ⟨-, e⟩ | ⟨o, -, -, e⟩ | e <;> cases e.symm.trans h
  · rfl
  · rw [issueNext_frame]
  · rfl

theorem execCmd_frame {c : Byte} {s t : State} (h : execCmd c s = .next t) :
    t = { s with hs := t.hs, hidx := t.hidx, harg := t.harg, refused := t.refused, reason := t.reason } := by
  obtain ⟨r, rfl⟩ | ⟨-, rfl⟩ := hostDo_inversion h <;> rfl

theorem execData_frame {p k : BitVec 3} {s t : State} (h : execData p k s = .next t) :
    t = { s with hs := t.hs, hidx := t.hidx, harg := t.harg, refused := t.refused, reason := t.reason } := by
  obtain ⟨r, rfl⟩ | ⟨-, rfl⟩ := hostDo_inversion h
  · rfl
  · obtain ⟨r, e⟩ | ⟨m, -, e⟩ := withDb_inversion s _
    · rw [e]; rfl
    · rw [e]

theorem execInit_frame {s t : State} (h : execInit s = .next t) :
    t = { s with
      hs := t.hs, hidx := t.hidx, harg := t.harg, initok := t.initok, refused := t.refused, reason := t.reason } := by
  obtain ⟨r, rfl⟩ | ⟨-, rfl⟩ := hostDo_inversion h
  · rfl
  · split_ifs <;> rfl

theorem execContrastSet_frame {v : BitVec 32} {nn : Bool} {s t : State} (h : execContrastSet v nn s = .next t) :
    t = { s with
      hs := t.hs, hidx := t.hidx, harg := t.harg, contrast := t.contrast, hres := t.hres, hval := t.hval
      refused := t.refused, reason := t.reason } := by
  obtain ⟨r, rfl⟩ | ⟨-, rfl⟩ := hostDo_inversion h
  · rfl
  · split <;> rfl

/-- Settles O50: each operation's frame; the bus rows' is that of the issue of their bytes. -/
theorem senderFrame : Obligations.SenderFrame := by
  intro s t c p k v nn bs i
  refine ⟨fun hi h => ?issue, fun hi h => ?take, execInit_frame, execContrastSet_frame⟩
  case issue =>
    rcases List.mem_cons.1 hi with rfl | hrow
    · exact execFlushStep_frame h
    · obtain ⟨bytes, hbytes⟩ : ∃ bytes, encode i = .bytes bytes := by
        clear h hi
        fin_cases hrow <;> exact ⟨_, rfl⟩
      rw [exec_of_encode_bytes hbytes] at h
      exact issueWrite_frame h
  case take =>
    simp only [List.mem_cons, List.not_mem_nil, or_false] at hi
    rcases hi with rfl | rfl
    · exact execCmd_frame h
    · exact execData_frame h

end Sys2Proof.Machine
end

section
/-! What every step of every agent leaves unchanged (60_exceptions.md R280, 41_scheduler_dispatcher.md R154,
43_protocol_encoder.md R221, 10_state.md R27, R34, R40).  A statement about all changes is a case split along `Change`;
one that depends on which agent steps goes through the frames of the operations. -/

namespace Sys2Proof.Machine

/-! No step faults (60_exceptions.md R280). -/

theorem issueWrite_answers (bytes : List Byte) (s : State) : ∃ t, issueWrite bytes s = .next t := by
  rcases issueWrite_cases bytes s with ⟨-, e⟩ | ⟨o, -, -, e⟩ | e <;> exact ⟨_, e⟩

theorem hostDb_answers (s : State) (f : State → Memory → State) : ∃ t, hostDb s f = .next t := ⟨_, hostDo_eq _ _⟩

theorem hostPixel_answers (mode : PixelMode) (x y : BitVec 16) (s : State) : ∃ t, hostPixel mode x y s = .next t :=
  hostDb_answers _ _

theorem exec_answers (i : Instr) (s : State) : ∃ t, exec i s = .next t := by
  cases i with
  | tick | flushStep | jobStart => exact ⟨_, agentDo_eq _ _ _⟩
  | reqFlush | cmd | data | init | contrastGet | contrastSet | arm | disarm | teardown =>
    simp only [exec]
    exact ⟨_, hostDo_eq _ _⟩
  | sync =>
    simp only [exec]
    exact hostDb_answers _ _
  | pixelSet x y => exact hostPixel_answers .set x y s
  | pixelClear x y => exact hostPixel_answers .clear x y s
  | pixelToggle x y => exact hostPixel_answers .toggle x y s
  | reservedOpc0 | reservedOpcF | reservedPixelMode3 => exact ⟨_, rfl⟩
  | _ => exact issueWrite_answers _ _

theorem takeStep_answers (a : AgentStep) (s : State) : ∃ t, takeStep a s = .next t := by
  cases a with
  | op issuer w =>
    simp only [takeStep, presentWord]
    split
    · exact exec_answers _ _
    · exact ⟨_, rfl⟩
  | write issuer bytes =>
    simp only [takeStep, presentWrite]
    split
    · exact exec_answers _ _
    · exact ⟨_, rfl⟩
  | hostIssue | hostRelease | bus | surfWrite | surfDims | surfPut => exact ⟨_, rfl⟩

/-- Settles O9: every meaning and every step of an agent answers a next state. -/
theorem nothingStopsTheBlock : Obligations.NothingStopsTheBlock := fun s =>
  takeStep_answers (nextStep s).1 (nextStep s).2

/-! Along the changes. -/

theorem refused_change {s t : State} (c : Change s t) (h : s.refused = true) : t.refused = true := by
  cases c with
  | complete => simpa using h
  | tick | reqFlush => simpa using h
  | refuse => rfl
  | hold | issue | raster | cmd | data | init | result | contrast | arm | disarm | teardown | jobStart | release
  | surface => exact h

/-- Settles O54: no change writes `REFUSED` but a refusal, which sets it. -/
theorem refusedIsSticky : Obligations.RefusedIsSticky := by
  intro a s t h hrefused
  obtain ⟨c, hc⟩ := change_takeStep h
  exact refused_change hc hrefused

/-- The changes of a released block: the others come with `ALIVE = 1`, or with a write due or outstanding, or during
TEARDOWN. -/
theorem released_change {s t : State} (c : Change s t) (h : ReleaseInv s) (released : s.alive = false) :
    t = { s with refused := t.refused, reason := t.reason, actor := t.actor, surf := t.surf } := by
  cases c with
  | hold | refuse | surface => rfl
  | issue o bytes free due => cases released.symm.trans (h.alive_of_due due)
  | complete o bytes r busy => cases released.symm.trans (h.alive_of_busy busy)
  | release waits =>
    obtain ⟨-, -, -, -, -, -, idle⟩ := h.of_released released
    cases waits.symm.trans idle
  | tick alive | reqFlush alive | raster alive | cmd alive | data alive | init alive | result alive | contrast alive
  | arm alive | disarm alive | teardown alive | jobStart alive => cases released.symm.trans alive

/-- Settles O55: a step makes one of the changes of `Change`, and of a released block these are few. -/
theorem releasedBlockOnlyRefuses : Obligations.ReleasedBlockOnlyRefuses := by
  intro a s t h released hstep
  obtain ⟨c, hc⟩ := change_takeStep hstep
  exact released_change (s := { s with actor := c }) hc h released

/-- The changes that write `DB` find no job running. -/
theorem db_change {s t : State} (c : Change s t) (running : s.jobrun = true) : t.db = s.db := by
  cases c with
  | complete => simp
  | tick | reqFlush => simp
  | raster _ _ _ jobrun | jobStart _ _ jobrun | release _ _ jobrun => cases running.symm.trans jobrun
  | hold | refuse | issue | cmd | data | init | result | contrast | arm | disarm | teardown | surface => rfl

/-- Settles O56: a step makes one of the changes of `Change`, and during a job none writes `DB`. -/
theorem runningFlushKeepsTheBitmap : Obligations.RunningFlushKeepsTheBitmap := by
  intro a s t running h
  obtain ⟨c, hc⟩ := change_takeStep h
  exact db_change (s := { s with actor := c }) hc running

theorem gateRelease_change {s t : State} (c : Change s t) : t.gateRelease = s.gateRelease := by
  cases c with
  | complete => simp
  | tick | reqFlush => simp
  | hold | refuse | issue | raster | cmd | data | init | result | contrast | arm | disarm | teardown | jobStart
  | release | surface => rfl

/-! The bus and `CONTRAST`, along the instructions. -/

/-- The bus rows and FLUSH_STEP alone write the bus, CONTRAST_SET alone writes `CONTRAST`. -/
theorem exec_bus_and_contrast {i : Instr} {s t : State} (h : exec i s = .next t) :
    (t.bus = s.bus ∧ t.trace = s.trace ∨ i = .flushStep ∨ ∃ bytes, encode i = .bytes bytes) ∧
      (t.contrast = s.contrast ∨ ∃ v nn, i = .contrastSet v nn) := by
  cases i with
  | tick => rw [execTick_frame h]; exact ⟨.inl ⟨rfl, rfl⟩, .inl rfl⟩
  | reqFlush => rw [execReqFlush_frame h]; exact ⟨.inl ⟨rfl, rfl⟩, .inl rfl⟩
  | pixelSet | pixelClear | pixelToggle => rw [hostPixel_frame h]; exact ⟨.inl ⟨rfl, rfl⟩, .inl rfl⟩
  | sync => rw [execSync_frame h]; exact ⟨.inl ⟨rfl, rfl⟩, .inl rfl⟩
  | flushStep => exact ⟨.inr (.inl rfl), .inl (by rw [execFlushStep_frame h])⟩
  | cmd => rw [execCmd_frame h]; exact ⟨.inl ⟨rfl, rfl⟩, .inl rfl⟩
  | data => rw [execData_frame h]; exact ⟨.inl ⟨rfl, rfl⟩, .inl rfl⟩
  | init => rw [execInit_frame h]; exact ⟨.inl ⟨rfl, rfl⟩, .inl rfl⟩
  | contrastGet => rw [execContrastGet_frame h]; exact ⟨.inl ⟨rfl, rfl⟩, .inl rfl⟩
  | contrastSet v nn => exact ⟨.inl (by rw [execContrastSet_frame h]; exact ⟨rfl, rfl⟩), .inr ⟨v, nn, rfl⟩⟩
  | arm => rw [execArm_frame h]; exact ⟨.inl ⟨rfl, rfl⟩, .inl rfl⟩
  | disarm => rw [execDisarm_frame h]; exact ⟨.inl ⟨rfl, rfl⟩, .inl rfl⟩
  | teardown => rw [execTeardown_frame h]; exact ⟨.inl ⟨rfl, rfl⟩, .inl rfl⟩
  | jobStart => rw [execJobStart_frame h]; exact ⟨.inl ⟨rfl, rfl⟩, .inl rfl⟩
  | reservedOpc0 | reservedOpcF | reservedPixelMode3 => cases h; exact ⟨.inl ⟨rfl, rfl⟩, .inl rfl⟩
  | _ => exact ⟨.inr (.inr ⟨_, rfl⟩), .inl (by rw [issueWrite_frame h])⟩

/-- A sender holds while a write is outstanding (43_protocol_encoder.md R213). -/
theorem issueNext_of_busy {o : Owner} {s : State} (busy : s.bus ≠ .free) : issueNext o s = s := by
  rcases issueNext_cases o s with ⟨_, free, -, -⟩ | e
  · exact absurd free busy
  · exact e

theorem issueWrite_bus_of_busy {bytes : List Byte} {s t : State} (busy : s.bus ≠ .free)
    (h : issueWrite bytes s = .next t) : t.bus = s.bus ∧ t.trace = s.trace := by
  rcases issueWrite_cases bytes s with ⟨-, e⟩ | ⟨o, -, -, e⟩ | e <;> cases e.symm.trans h
  · exact ⟨rfl, rfl⟩
  · rw [issueNext_of_busy busy]
    exact ⟨rfl, rfl⟩
  · exact ⟨rfl, rfl⟩

theorem exec_bus_of_busy {i : Instr} {s t : State} (busy : s.bus ≠ .free) (h : exec i s = .next t) :
    t.bus = s.bus ∧ t.trace = s.trace := by
  obtain ⟨kept | rfl | ⟨bytes, hbytes⟩, -⟩ := exec_bus_and_contrast h
  · exact kept
  · obtain ⟨r, rfl⟩ | ⟨-, -, rfl⟩ := agentDo_inversion (f := issueNext .worker) h
    · exact ⟨rfl, rfl⟩
    · rw [issueNext_of_busy busy]
      exact ⟨rfl, rfl⟩
  · rw [exec_of_encode_bytes hbytes] at h
    exact issueWrite_bus_of_busy busy h

theorem takeStep_bus_of_other {a : AgentStep} {s t : State} (busy : s.bus ≠ .free) (other : ∀ r, a ≠ .bus r)
    (h : takeStep a s = .next t) : t.bus = s.bus ∧ t.trace = s.trace := by
  cases a with
  | op issuer w =>
    simp only [takeStep, presentWord] at h
    split at h
    · exact exec_bus_of_busy (s := s.actAs issuer) busy h
    · cases h; exact ⟨rfl, rfl⟩
  | write issuer bytes =>
    simp only [takeStep, presentWrite] at h
    split at h
    · exact exec_bus_of_busy (s := s.actAs issuer) busy h
    · cases h; exact ⟨rfl, rfl⟩
  | hostIssue =>
    cases h
    rw [hostIssue, issueNext_of_busy busy]
    exact ⟨rfl, rfl⟩
  | hostRelease =>
    cases h
    unfold hostRelease
    split_ifs <;> exact ⟨rfl, rfl⟩
  | bus r => exact absurd rfl (other r)
  | surfWrite | surfDims | surfPut => cases h; exact ⟨rfl, rfl⟩

/-- A worker write is outstanding only during a job, which holds the token under `ON_COMPLETE` (10_state.md R26). -/
theorem TokenInv.gate_of_busy {s : State} {bytes : List Byte} (h : TokenInv s) (hg : s.gateRelease = .onComplete)
    (busy : s.bus = .busy .worker bytes) : s.gate = true := by
  have running := h.jobrun_of_busy busy
  obtain ⟨hcomplete, -, -⟩ := h
  rw [(hcomplete hg).1, running, Bool.or_true]

/-- Settles O57: no other step writes the bus while it is busy, and the token invariant holds after the step. -/
theorem onlyACompletionFreesTheBus : Obligations.OnlyACompletionFreesTheBus := by
  intro a s t o bytes busy other h
  obtain ⟨hbus, htrace⟩ := takeStep_bus_of_other (by simp [busy]) other h
  refine ⟨hbus, htrace, fun htoken hg howner => ?_⟩
  subst howner
  obtain ⟨c, hc⟩ := change_takeStep h
  exact (tokenInv_change hc htoken).gate_of_busy ((gateRelease_change hc).trans hg) (hbus.trans busy)

/-- A contrast input is accepted as the byte of its value (44_init_contrast.md R249). -/
theorem contrastInput_eq_some_iff {v : BitVec 32} {nn : Bool} {c : Byte} :
    contrastInput v nn = some c ↔ nn = false ∧ v.toInt = (c.toNat : Int) := by
  unfold contrastInput
  split_ifs with hreject
  · simp only [false_iff, not_and]
    rintro rfl
    simp only [Bool.false_eq_true, false_or] at hreject
    omega
  · simp only [not_or, Bool.not_eq_true, not_lt] at hreject
    obtain ⟨hnn, hlow, hhigh⟩ := hreject
    simp only [Option.some_inj, hnn, true_and, ← BitVec.toNat_inj, BitVec.toNat_setWidth]
    rw [BitVec.toInt_eq_toNat_cond] at *
    split_ifs at * <;> omega

theorem execContrastSet_contrast {v : BitVec 32} {nn : Bool} {s t : State} (h : execContrastSet v nn s = .next t) :
    t.contrast = s.contrast ∨ s.actor = .host ∧ nn = false ∧ v.toInt = (t.contrast.toNat : Int) := by
  obtain ⟨r, rfl⟩ | ⟨⟨actor, -, -⟩, rfl⟩ := hostDo_inversion h
  · exact .inl rfl
  · split
    · exact .inl rfl
    · exact .inr ⟨actor, contrastInput_eq_some_iff.1 ‹_›⟩

theorem takeStep_contrast {a : AgentStep} {s t : State} (h : takeStep a s = .next t) :
    t.contrast = s.contrast ∨ ∃ w v, a = .op .host w ∧ decodeWord w = .ok (.contrastSet v false) ∧
      v.toInt = (t.contrast.toNat : Int) := by
  cases a with
  | op issuer w =>
    simp only [takeStep, presentWord] at h
    split at h
    · obtain ⟨-, kept | ⟨v, nn, rfl⟩⟩ := exec_bus_and_contrast h
      · exact .inl kept
      · obtain kept | ⟨rfl, rfl, hv⟩ := execContrastSet_contrast h
        · exact .inl kept
        · exact .inr ⟨w, v, rfl, ‹_›, hv⟩
    · cases h; exact .inl rfl
  | write issuer bytes =>
    simp only [takeStep, presentWrite] at h
    split at h
    · obtain ⟨-, hbytes, -⟩ := decodedWriteIsItsEncoding _ _ ‹_›
      rw [exec_of_encode_bytes hbytes] at h
      exact .inl (by rw [issueWrite_frame h]; rfl)
    · cases h; exact .inl rfl
  | hostIssue => cases h; exact .inl (by rw [hostIssue, issueNext_frame])
  | hostRelease => cases h; unfold hostRelease; split_ifs <;> exact .inl rfl
  | bus r =>
    cases h
    rcases busComplete_cases r s with ⟨-, e⟩ | ⟨o, bytes, -, e⟩ <;> exact .inl (by simp [e])
  | surfWrite | surfDims | surfPut => cases h; exact .inl rfl

/-- Settles O60: of the operations CONTRAST_SET alone writes `CONTRAST`, and no change writes the parameter. -/
theorem onlyContrastSetWritesContrast : Obligations.OnlyContrastSetWritesContrast := by
  intro a s t h
  obtain ⟨c, hc⟩ := change_takeStep h
  exact ⟨takeStep_contrast h, gateRelease_change (s := { s with actor := c }) hc⟩

end Sys2Proof.Machine
end

section
/-! `TRACE` and `LOG` are outputs (10_state.md R38, R39).  An update is blind to them when, with other events before, it
does the same and appends the same events; the operations are built of blind updates. -/

namespace Sys2Proof.Machine

/-- The state with earlier events before those it holds. -/
def State.withEarlier (trace : List TxEvent) (log : List LogEvent) (s : State) : State :=
  { s with trace := trace ++ s.trace, log := log ++ s.log }

/-- The raster with earlier events before those its log holds. -/
def Raster.withEarlier (log : List LogEvent) (r : Raster) : Raster := { r with log := log ++ r.log }

/-- The update does the same with any events before. -/
def Blind (f : State → State) : Prop :=
  ∀ trace log s, f (s.withEarlier trace log) = (f s).withEarlier trace log

/-- The answer is the same with any events before. -/
def BlindAnswer (f : State → Answer) : Prop :=
  ∀ trace log s t, f s = .next t → f (s.withEarlier trace log) = .next (t.withEarlier trace log)

theorem Blind.answer {f : State → State} {F : State → Answer} (hf : Blind f) (hF : ∀ s, F s = .next (f s)) :
    BlindAnswer F := by
  intro trace log s t h
  rw [hF] at h ⊢
  cases h
  exact congrArg _ (hf trace log s)

theorem blind_refuse (r : RefuseReason) : Blind (refuse r) := fun _ _ _ => rfl

theorem blind_same : Blind fun s => s := fun _ _ _ => rfl

/-- A choice by a condition that says nothing of the events. -/
theorem blind_ite {c : State → Prop} [∀ s, Decidable (c s)] {f g : State → State} (hf : Blind f) (hg : Blind g)
    (hc : ∀ trace log s, c (s.withEarlier trace log) ↔ c s := by exact fun _ _ _ => Iff.rfl) :
    Blind fun s => if c s then f s else g s := by
  intro trace log s
  simp only [hc, apply_ite (State.withEarlier trace log), hf trace log s, hg trace log s]

/-! The checks. -/

theorem blindAnswer_agentDo {a : Issuer} {f : State → State} (hf : Blind f) : BlindAnswer (agentDo a · f) :=
  Blind.answer (blind_ite (blind_refuse _) (blind_ite hf (blind_refuse _))) (agentDo_eq a · f)

theorem blindAnswer_hostDo {f : State → State} (hf : Blind f) : BlindAnswer (hostDo · f) :=
  Blind.answer (blind_ite (blind_refuse _) (blind_ite (blind_refuse _) (blind_ite (blind_refuse _) hf))) (hostDo_eq · f)

theorem blind_withDb {f : State → Memory → State} (hf : ∀ m, Blind (f · m)) : Blind fun s => withDb s (f s) := by
  intro trace log s
  simp only [withDb, State.withEarlier]
  split
  · rfl
  · exact hf _ trace log s

theorem blindAnswer_hostDb {f : State → Memory → State} (hf : ∀ m, Blind (f · m)) : BlindAnswer (hostDb · f) :=
  blindAnswer_hostDo (blind_ite (blind_refuse _) (blind_withDb hf))

/-! The converter. -/

theorem pixelOp_withEarlier (mode : PixelMode) (x y : Int) (log : List LogEvent) (r : Raster) :
    pixelOp mode x y (r.withEarlier log) = (pixelOp mode x y r).withEarlier log := by
  cases h : inBounds x y with
  | true =>
    simp only [pixelOp, h, if_true]
    rfl
  | false => simp [pixelOp_outOfBounds h, Raster.withEarlier]

theorem writeSurfacePixel_withEarlier (S : Surface) (log : List LogEvent) (r : Raster) (p : Nat × Nat) :
    writeSurfacePixel S (r.withEarlier log) p = (writeSurfacePixel S r p).withEarlier log := by
  simp only [writeSurfacePixel, pixelWrite, pixelOp_withEarlier]

theorem syncLoop_withEarlier (S : Surface) (log : List LogEvent) (r : Raster) :
    syncLoop S (r.withEarlier log) = (syncLoop S r).withEarlier log := by
  rw [syncLoop_eq_foldl, syncLoop_eq_foldl]
  exact List.foldl_hom (Raster.withEarlier log) (writeSurfacePixel_withEarlier S log)

theorem blindAnswer_hostPixel (mode : PixelMode) (x y : BitVec 16) : BlindAnswer (hostPixel mode x y) := by
  refine blindAnswer_hostDb fun m trace log s => ?_
  have hop := pixelOp_withEarlier mode (coord x) (coord y) log ⟨m, s.log⟩
  exact congrArg (putRaster (s.withEarlier trace log)) hop

theorem syncBody_withEarlier (S : Surface) (log : List LogEvent) (r : Raster) :
    syncBody S (r.withEarlier log) = (syncBody S r).map (Raster.withEarlier log) := by
  unfold syncBody
  split_ifs
  · exact congrArg some (syncLoop_withEarlier S log r)
  · rfl

theorem blindAnswer_execSync : BlindAnswer execSync := by
  refine blindAnswer_hostDb fun m trace log s => ?_
  have hbody := syncBody_withEarlier s.surf log ⟨m, s.log⟩
  simp only [Raster.withEarlier] at hbody
  simp only [State.withEarlier, hbody]
  cases syncBody s.surf ⟨m, s.log⟩ <;> rfl

theorem blindAnswer_execJobStart : BlindAnswer execJobStart := by
  refine blindAnswer_agentDo (blind_ite (blind_withDb fun m trace log s => ?_) blind_same)
  have hbody := syncBody_withEarlier s.surf log ⟨m, s.log⟩
  simp only [Raster.withEarlier] at hbody
  simp only [State.withEarlier, hbody]
  cases syncBody s.surf ⟨m, s.log⟩ <;> rfl

/-! The bus. -/

theorem nextWrite_withEarlier (o : Owner) (trace : List TxEvent) (log : List LogEvent) (s : State) :
    nextWrite o (s.withEarlier trace log) = nextWrite o s := by
  cases o <;> rfl

theorem busIssue_withEarlier (o : Owner) (bytes : List Byte) : Blind (busIssue o bytes) := by
  intro trace log s
  simp [busIssue, State.withEarlier]

theorem blind_issueNext (o : Owner) : Blind (issueNext o) := by
  intro trace log s
  simp only [issueNext, nextWrite_withEarlier]
  simp only [State.withEarlier]
  split
  · exact busIssue_withEarlier _ _ trace log s
  · rfl

theorem blindAnswer_issueWrite (bytes : List Byte) : BlindAnswer (issueWrite bytes) := by
  intro trace log s t h
  simp only [issueWrite, nextWrite_withEarlier] at h ⊢
  simp only [State.withEarlier]
  split at h <;> cases h
  · rfl
  · split_ifs
    · exact congrArg _ (blind_issueNext _ trace log s)
    · rfl

theorem blind_workerContinue (r : BusResult) : Blind (workerContinue r) := by
  cases r with
  | ok => exact blind_ite (fun _ _ _ => rfl) (blind_ite (fun _ _ _ => rfl) fun _ _ _ => rfl)
  | fail =>
    intro trace log s
    simp [workerContinue, State.withEarlier, jobEnd, gateAtEnd]

theorem blind_initContinue (r : BusResult) : Blind (initContinue r) := by
  cases r with
  | ok => exact blind_ite (fun _ _ _ => rfl) fun _ _ _ => rfl
  | fail => exact fun _ _ _ => rfl

theorem blind_contrastContinue (r : BusResult) : Blind (contrastContinue r) := by
  cases r with
  | ok => exact blind_ite (fun _ _ _ => rfl) fun _ _ _ => rfl
  | fail => exact fun _ _ _ => rfl

theorem blind_hostContinue (r : BusResult) : Blind (hostContinue r) := by
  intro trace log s
  simp only [hostContinue, State.withEarlier]
  split
  · rfl
  · rfl
  · exact blind_initContinue r trace log s
  · exact blind_contrastContinue r trace log s
  · rfl
  · rfl

theorem blind_ownerContinue (o : Owner) (r : BusResult) : Blind (ownerContinue o r) := by
  cases o with
  | worker => exact blind_workerContinue r
  | host => exact blind_hostContinue r

theorem blind_busComplete (r : BusResult) : Blind (busComplete r) := by
  intro trace log s
  simp only [busComplete, State.withEarlier]
  split
  · rfl
  · next o _ _ =>
    rw [List.append_assoc]
    exact blind_ownerContinue o r trace log { s with bus := .free, trace := s.trace ++ [.done o r] }

/-! The instructions and the agents' steps. -/

theorem blind_admitJob : Blind admitJob := blind_ite blind_same fun _ _ _ => rfl

theorem blindAnswer_execTick : BlindAnswer execTick :=
  blindAnswer_agentDo (blind_ite (blind_ite blind_admitJob blind_same) blind_same)

theorem blindAnswer_execReqFlush : BlindAnswer execReqFlush :=
  blindAnswer_hostDo fun trace log s => congrArg (finish .resOk _) (blind_admitJob trace log s)

theorem blindAnswer_execInit : BlindAnswer execInit :=
  blindAnswer_hostDo (blind_ite (blind_refuse _) fun _ _ _ => rfl)

theorem blindAnswer_execArm : BlindAnswer execArm :=
  blindAnswer_hostDo (blind_ite (fun _ _ _ => rfl) (blind_refuse _))

theorem blind_hostRelease : Blind hostRelease := blind_ite (fun _ _ _ => rfl) blind_same

theorem blindAnswer_execContrastSet (v : BitVec 32) (nn : Bool) : BlindAnswer (execContrastSet v nn) := by
  refine blindAnswer_hostDo fun trace log s => ?_
  simp only [State.withEarlier]
  split <;> rfl

theorem blindAnswer_execData (p k : BitVec 3) : BlindAnswer (execData p k) :=
  blindAnswer_hostDo <| blind_withDb fun _ _ _ _ => rfl

theorem blindAnswer_exec (i : Instr) : BlindAnswer (exec i) := by
  cases i with
  | tick => exact blindAnswer_execTick
  | reqFlush => exact blindAnswer_execReqFlush
  | pixelSet x y => exact blindAnswer_hostPixel .set x y
  | pixelClear x y => exact blindAnswer_hostPixel .clear x y
  | pixelToggle x y => exact blindAnswer_hostPixel .toggle x y
  | sync => exact blindAnswer_execSync
  | flushStep => exact blindAnswer_agentDo (blind_issueNext .worker)
  | cmd c => exact blindAnswer_hostDo fun _ _ _ => rfl
  | data p k => exact blindAnswer_execData p k
  | init => exact blindAnswer_execInit
  | contrastGet => exact blindAnswer_hostDo fun _ _ _ => rfl
  | contrastSet v nn => exact blindAnswer_execContrastSet v nn
  | arm => exact blindAnswer_execArm
  | disarm => exact blindAnswer_hostDo fun _ _ _ => rfl
  | teardown => exact blindAnswer_hostDo fun _ _ _ => rfl
  | jobStart => exact blindAnswer_execJobStart
  | reservedOpc0 | reservedOpcF | reservedPixelMode3 => intro _ _ _ _ h; cases h; rfl
  | _ => exact blindAnswer_issueWrite _

theorem blindAnswer_takeStep (a : AgentStep) : BlindAnswer (takeStep a) := by
  intro trace log s t h
  cases a with
  | op issuer w =>
    simp only [takeStep, presentWord] at h ⊢
    split at h
    · exact blindAnswer_exec _ trace log (s.actAs issuer) t h
    · cases h; rfl
  | write issuer bytes =>
    simp only [takeStep, presentWrite] at h ⊢
    split at h
    · exact blindAnswer_exec _ trace log (s.actAs issuer) t h
    · cases h; rfl
  | hostIssue => cases h; exact congrArg _ (blind_issueNext .host trace log s)
  | hostRelease => cases h; exact congrArg _ (blind_hostRelease trace log s)
  | bus r => cases h; exact congrArg _ (blind_busComplete r trace log s)
  | surfWrite | surfDims | surfPut => cases h; rfl

/-- Settles O58: the statement's first step is taken with no events before, its second with some. -/
theorem outputsAreNeverRead : Obligations.OutputsAreNeverRead := by
  intro a s t trace log h
  simpa [State.withEarlier] using blindAnswer_takeStep a trace log _ t h

end Sys2Proof.Machine
end

section
/-! The outcome of each operation, where it is done, where it is refused and where it holds.  The checks before it are said
once (`agentDo_ready`, `hostDo_ready`, `hostDb_ready` and the refusals); what is left is the operation's own update. -/

namespace Sys2Proof.Machine

/-! The checks. -/

theorem agentDo_ready {a : Issuer} {s : State} (actor : s.actor = a) (alive : s.alive = true) (f : State → State) :
    agentDo a s f = .next (f s) := by
  simp [agentDo_eq, actor, alive]

theorem agentDo_released {s : State} (released : s.alive = false) (a : Issuer) (f : State → State) :
    agentDo a s f = .next (refuse .released s) := by
  simp [agentDo_eq, released]

theorem agentDo_wrongIssuer {a : Issuer} {s : State} (actor : s.actor ≠ a) (alive : s.alive = true)
    (f : State → State) : agentDo a s f = .next (refuse .wrongIssuer s) := by
  simp [agentDo_eq, actor, alive]

theorem hostDo_released {s : State} (released : s.alive = false) (f : State → State) :
    hostDo s f = .next (refuse .released s) := by
  simp [hostDo_eq, released]

theorem hostDo_wrongIssuer {s : State} (actor : s.actor ≠ .host) (alive : s.alive = true) (f : State → State) :
    hostDo s f = .next (refuse .wrongIssuer s) := by
  simp [hostDo_eq, actor, alive]

theorem hostDo_hostBusy {s : State} (actor : s.actor = .host) (alive : s.alive = true) (busy : s.hs ≠ .idle)
    (f : State → State) : hostDo s f = .next (refuse .hostBusy s) := by
  simp [hostDo_eq, actor, alive, busy]

/-! The token. -/

theorem gateAtStart_eq_ite (s : State) : gateAtStart s = if s.gateRelease = .onStart then false else s.gate := by
  cases h : s.gateRelease <;> simp [gateAtStart, h]

theorem gateAtEnd_eq_ite (s : State) : gateAtEnd s = if s.gateRelease = .onComplete then false else s.gate := by
  cases h : s.gateRelease <;> simp [gateAtEnd, h]

theorem admitJob_of_free {s : State} (free : s.gate = false) : admitJob s = { s with gate := true, jobq := true } := by
  simp [admitJob, free]

theorem admitJob_of_set {s : State} (set : s.gate = true) : admitJob s = s := by
  simp [admitJob, set]

/-! The converter (42_pixel_packing.md R183 to R190). -/

theorem toNat_toInt_of_nonneg {n : Nat} {x : BitVec n} (h : 0 ≤ x.toInt) : x.toInt.toNat = x.toNat := by
  rw [BitVec.toInt_eq_toNat_cond] at h ⊢
  split_ifs at h ⊢ <;> omega

theorem hostPixel_ready {mode : PixelMode} {x y : BitVec 16} {s : State} {m : Memory} (ready : HostDbReady s m) :
    hostPixel mode x y s = .next (putRaster s (pixelOp mode x.toInt y.toInt ⟨m, s.log⟩)) := hostDb_ready ready _

theorem hostPixel_inBounds {mode : PixelMode} {x y : BitVec 16} {s : State} {m : Memory} (ready : HostDbReady s m)
    (hin : inBounds x.toInt y.toInt = true) :
    let i := x.toNat + y.toNat / 8 * 128
    hostPixel mode x y s = .next { s with
      db := some (Memory.write m i (mode.apply (Memory.read m i) (1 <<< (y.toNat % 8)))), hres := .resOk, hval := 0 } := by
  obtain ⟨hx, -, hy, -⟩ := (inBounds_iff _ _).1 hin
  rw [hostPixel_ready ready, pixelOp, if_pos hin, toNat_toInt_of_nonneg hx, toNat_toInt_of_nonneg hy]
  rfl

theorem hostPixel_outOfBounds {mode : PixelMode} {x y : BitVec 16} {s : State} {m : Memory} (ready : HostDbReady s m)
    (hout : inBounds x.toInt y.toInt = false) :
    hostPixel mode x y s = .next { s with
      log := s.log ++ [.warnOob x.toInt y.toInt], hres := .resOk, hval := 0 } := by
  rw [hostPixel_ready ready, pixelOp_outOfBounds hout]
  obtain ⟨-, -, -, hm⟩ := ready
  simp [putRaster, finish, ← hm]

/-- Settles O13: the three modes of one update. -/
theorem pixelInBoundsWritesItsByte : Obligations.PixelInBoundsWritesItsByte := fun _ _ _ _ ready hin =>
  ⟨hostPixel_inBounds (mode := .set) ready hin, hostPixel_inBounds (mode := .clear) ready hin,
    hostPixel_inBounds (mode := .toggle) ready hin⟩

/-- Settles O14: in every mode the warning alone. -/
theorem pixelOutOfBoundsWarns : Obligations.PixelOutOfBoundsWarns := by
  intro s m x y i ready hout hi
  rcases hi with rfl | rfl | rfl
  · exact hostPixel_outOfBounds (mode := .set) ready hout
  · exact hostPixel_outOfBounds (mode := .clear) ready hout
  · exact hostPixel_outOfBounds (mode := .toggle) ready hout

/-- The pixel and the bytes after a PIXEL operation of any mode. -/
theorem hostPixel_changes_one_bit {mode : PixelMode} {x y : BitVec 16} {s t : State} {m : Memory}
    (ready : HostDbReady s m) (h : hostPixel mode x y s = .next t) :
    ∃ m', t.db = some m' ∧
      (∀ x' y' : Nat, x' < 128 → y' < 64 →
        readPixel m' x' y' =
          if (x' : Int) = x.toInt ∧ (y' : Int) = y.toInt then mode.onBit (readPixel m x' y') else readPixel m x' y') ∧
      (∀ a, inBounds x.toInt y.toInt = false ∨ a ≠ dbIndex x.toInt.toNat y.toInt.toNat →
        Memory.read m' a = Memory.read m a) := by
  cases (hostPixel_ready ready).symm.trans h
  refine ⟨_, rfl, fun x' y' hx hy => ?_, fun a ha => read_pixelOp_other ha⟩
  rw [readPixel_pixelOp hx hy]
  simp only [Prod.mk.injEq]

/-- Settles O15: each operation by its mode. -/
theorem pixelChangesOneBit : Obligations.PixelChangesOneBit := by
  intro s t m x y i new ready hi h
  rcases hi with ⟨rfl, rfl⟩ | ⟨rfl, rfl⟩ | ⟨rfl, rfl⟩
  · exact hostPixel_changes_one_bit (mode := .set) ready h
  · exact hostPixel_changes_one_bit (mode := .clear) ready h
  · exact hostPixel_changes_one_bit (mode := .toggle) ready h

theorem syncBody_of_ok {S : Surface} (ok : surfaceOk S = true) (r : Raster) : syncBody S r = some (syncLoop S r) :=
  if_pos ok

theorem syncBody_of_malformed {S : Surface} (malformed : surfaceOk S = false) (r : Raster) : syncBody S r = none :=
  if_neg (by simp [malformed])

/-- An otherwise enabled JOB_START is the sync, on which it starts or is refused as a whole (41_scheduler_dispatcher.md
R146, 42_pixel_packing.md R190). -/
theorem execJobStart_enabled {s : State} {m : Memory} (actor : s.actor = .worker) (alive : s.alive = true)
    (jobq : s.jobq = true) (jobrun : s.jobrun = false) (hm : s.db = some m) :
    exec .jobStart s = .next (if surfaceOk s.surf = true then
      { s with
        jobq := false, jobrun := true, gate := gateAtStart s, db := some (syncLoop s.surf ⟨m, s.log⟩).db
        log := s.log ++ syncWarnings s.surf, fpage := 0, fslot := 0 }
      else refuse .malformedSurface s) := by
  rw [exec, execJobStart, agentDo_ready actor alive, jobq, jobrun, withDb, hm]
  cases ok : surfaceOk s.surf
  · simp [syncBody_of_malformed ok]
  · simp [syncBody_of_ok ok, syncLoop_log]

/-- Settles O24: the start, with the token as the parameter has it. -/
theorem jobStartSyncsAndStarts : Obligations.JobStartSyncsAndStarts := by
  intro s m actor jobq jobrun alive hm ok
  rw [execJobStart_enabled actor alive jobq jobrun hm, if_pos ok, gateAtStart_eq_ite]

/-- Settles O20: the sync answers no raster, and both operations are refused then. -/
theorem malformedSurfaceIsRefused : Obligations.MalformedSurfaceIsRefused := by
  refine ⟨fun s m ready malformed => ?_, fun s m actor alive jobq jobrun hm malformed => ?_⟩
  · rw [exec, execSync, hostDb_ready ready, syncBody_of_malformed malformed]
    rfl
  · rw [execJobStart_enabled actor alive jobq jobrun hm, if_neg (by simp [malformed])]
    rfl

/-! The scheduler and the dispatcher (41_scheduler_dispatcher.md R141 to R153). -/

/-- Settles O21: by `LINK` and `GATE`. -/
theorem tickRequestsAFlush : Obligations.TickRequestsAFlush := by
  intro s actor armed alive
  rw [exec, execTick, agentDo_ready actor alive, if_pos armed]
  cases hlink : s.link
  · simp
  · cases hgate : s.gate
    · simp [admitJob_of_free hgate, hlink]
    · simp [admitJob_of_set hgate]

theorem execReqFlush_ready {s : State} (ready : HostReady s) :
    exec .reqFlush s = .next (finish .resOk (if s.gate then 0 else 1) (admitJob s)) := by
  rw [exec, execReqFlush, hostDo_ready ready]

/-- Settles O22: admitted with a free token, dropped with a set one. -/
theorem reqFlushTestsAndSets : Obligations.ReqFlushTestsAndSets := by
  refine fun s ready => ⟨fun free => ?_, fun set => ?_⟩
  · rw [execReqFlush_ready ready, admitJob_of_free free, if_neg (by simp [free])]
    rfl
  · rw [execReqFlush_ready ready, admitJob_of_set set, if_pos set]
    rfl

theorem execArm_ready {s : State} (ready : HostReady s) :
    exec .arm s = .next (if s.initok then finish .resOk 0 { s with armed := true } else refuse .notInitialized s) := by
  rw [exec, execArm, hostDo_ready ready]

/-- Settles O25: after INIT, and in any state. -/
theorem armAndDisarm : Obligations.ArmAndDisarm := by
  refine ⟨fun s ready initok => ?_, fun s ready => ?_⟩
  · rw [execArm_ready ready, if_pos initok]
    rfl
  · rw [exec, execDisarm, hostDo_ready ready]
    rfl

/-- Settles O26: the presenting step, and the release after the drain. -/
theorem teardownThenRelease : Obligations.TeardownThenRelease := by
  refine ⟨fun s ready => ?_, fun s waits jobq jobrun free => ?_⟩
  · rw [exec, execTeardown, hostDo_ready ready]
  · rw [takeStep, hostRelease, if_pos ⟨waits, jobq, jobrun, free⟩]
    rfl

theorem execInit_ready {s : State} (ready : HostReady s) :
    exec .init s = .next (if s.armed || s.jobq || s.jobrun then refuse .initWhileActive s
      else { s with initok := false, hs := .init, hidx := 0, harg := [] }) := by
  rw [exec, execInit, hostDo_ready ready]

/-- Settles O40: nothing is active. -/
theorem initStartsItsScript : Obligations.InitStartsItsScript := by
  intro s ready armed jobq jobrun
  rw [execInit_ready ready, if_neg (by simp [armed, jobq, jobrun])]

/-- The HOST's use of the Device Bitmap is refused while a job is queued or running (42_pixel_packing.md R196). -/
theorem hostDb_dbBusy {s : State} (ready : HostReady s) (job : s.jobq = true ∨ s.jobrun = true)
    (f : State → Memory → State) : hostDb s f = .next (refuse .dbBusy s) := by
  rw [hostDb, hostDo_ready ready, if_pos (by simpa using job)]

theorem exec_eq_hostDb {i : Instr} {x y : BitVec 16}
    (h : i = .sync ∨ i = .pixelSet x y ∨ i = .pixelClear x y ∨ i = .pixelToggle x y) :
    ∃ f, ∀ s, exec i s = hostDb s f := by
  rcases h with rfl | rfl | rfl | rfl
  · exact ⟨_, fun s => by rw [exec, execSync]⟩
  · exact ⟨_, fun s => by rw [exec, execPixelSet, hostPixel]⟩
  · exact ⟨_, fun s => by rw [exec, execPixelClear, hostPixel]⟩
  · exact ⟨_, fun s => by rw [exec, execPixelToggle, hostPixel]⟩

/-- Settles O27: each operation by its own check. -/
theorem orderingRefusals : Obligations.OrderingRefusals := by
  refine ⟨fun s ready initok => ?_, fun s ready active => ?_, fun s i x y ready job hi => ?_⟩
  · rw [execArm_ready ready, if_neg (by simp [initok])]
    rfl
  · rw [execInit_ready ready, if_pos (by simpa [or_assoc] using active)]
    rfl
  · obtain ⟨f, hf⟩ := exec_eq_hostDb hi
    rw [hf, hostDb_dbBusy ready job]
    rfl

/-! Contrast (44_init_contrast.md R248 to R254). -/

theorem execContrastSet_ready {s : State} (ready : HostReady s) (v : BitVec 32) (nn : Bool) :
    exec (.contrastSet v nn) s = .next ((contrastInput v nn).elim (finish .eInval 0 s) fun c =>
      { s with contrast := c, hs := .contrast, hidx := 0, harg := [c] }) := by
  rw [exec, execContrastSet, hostDo_ready ready]
  cases contrastInput v nn <;> rfl

/-- Settles O44: the register, in the step. -/
theorem contrastGetReads : Obligations.ContrastGetReads := fun _ ready => hostDo_ready ready _

/-- Settles O45: the input is rejected, or is the byte of its value. -/
theorem contrastSetValidates : Obligations.ContrastSetValidates := by
  refine ⟨fun s v nn ready reject => ?_, fun s v c ready accept => ?_⟩
  · rw [execContrastSet_ready ready, contrastInput, if_pos reject]
    rfl
  · rw [execContrastSet_ready ready, contrastInput_eq_some_iff.2 ⟨rfl, accept⟩]
    rfl

/-- Settles O59: the checks of the HOST read none of these fields, nor does either update. -/
theorem contrastIgnoresTheBitmap : Obligations.ContrastIgnoresTheBitmap := by
  intro s t i v nn db gate jobq jobrun initok hi h
  have check : hostCheck { s with db := db, gate := gate, jobq := jobq, jobrun := jobrun, initok := initok } =
      hostCheck s := rfl
  rcases hi with rfl | rfl
  · simp only [exec, execContrastGet, hostDo, check] at h ⊢
    revert h
    cases hostCheck s <;> rintro ⟨⟩ <;> exact ⟨rfl, rfl, rfl, rfl, rfl, rfl⟩
  · simp only [exec, execContrastSet, hostDo, check] at h ⊢
    revert h
    cases hostCheck s <;> cases contrastInput v nn <;> rintro ⟨⟩ <;> exact ⟨rfl, rfl, rfl, rfl, rfl, rfl⟩

end Sys2Proof.Machine
end

section
/-! The refusals by context and the steps that are not enabled (60_exceptions.md R280 to R283), and the senders' steps and
the bus rows (43_protocol_encoder.md sections 1, 3, 4; log 10). -/

namespace Sys2Proof.Machine

/-! The bus rows. -/

theorem issueWrite_ready {o : Owner} {bytes : List Byte} {s : State} (ready : SenderReady o bytes s) :
    issueWrite bytes s = .next (busIssue o bytes s) := by
  obtain ⟨sender, due, free⟩ := ready
  simp [issueWrite, sender, due, issueNext_ready free due]

/-- A bus row is the issue of its bytes by the sender they are due at. -/
theorem exec_busRow_ready {i : Instr} {o : Owner} {bytes : List Byte} {s : State} (row : encode i = .bytes bytes)
    (ready : SenderReady o bytes s) : exec i s = .next (busIssue o bytes s) := by
  rw [exec_of_encode_bytes row, issueWrite_ready ready]

/-- A bus row that is not due, or finds the bus busy, changes nothing. -/
theorem exec_busRow_holds {i : Instr} {o : Owner} {bytes : List Byte} {s : State} (row : encode i = .bytes bytes)
    (sender : senderOf s.actor = some o) (notDue : nextWrite o s ≠ some bytes ∨ s.bus ≠ .free) :
    exec i s = .next s := by
  rw [exec_of_encode_bytes row]
  simp only [issueWrite, sender]
  split_ifs with due
  · rw [issueNext_of_busy (notDue.resolve_left (not_not.2 due))]
  · rfl

/-- The TIMER issues no bus writes (60_exceptions.md R283). -/
theorem exec_busRow_timer {i : Instr} {bytes : List Byte} {s : State} (row : encode i = .bytes bytes)
    (actor : s.actor = .timer) : exec i s = .next (refuse (if s.alive then .wrongIssuer else .released) s) := by
  rw [exec_of_encode_bytes row, issueWrite, actor]
  rfl

/-- The command bytes with a row of their own, but for the page selects (30_encoding.md R107 to R123). -/
theorem encode_commandRows :
    ∀ row ∈ [((0xAE : Byte), Instr.cbDisplayOff), (0xD5, .cbClockDivide), (0xA8, .cbMultiplex),
        (0xD3, .cbDisplayOffset), (0x40, .cbStartLine), (0xA1, .cbSegmentRemap), (0xC8, .cbComScan),
        (0xDA, .cbComPins), (0x81, .cbInitContrast), (0xA4, .cbEntireDisplay), (0xA6, .cbNormalPolarity),
        (0x8D, .cbChargePump), (0x20, .cbAddressingMode), (0xAF, .cbDisplayOn), (0x00, .cbColumnLow),
        (0x10, .cbColumnHigh), (0x81, .cbSetContrast)],
      encode row.2 = .bytes [0x00, row.1] := by
  decide

/-- Settles O37: each row is encoded as its write. -/
theorem busRowsIssueTheirWrite : Obligations.BusRowsIssueTheirWrite := by
  refine ⟨fun s o c i ready hi => exec_busRow_ready ?_ ready, fun s o bs ready => exec_busRow_ready rfl ready⟩
  rcases hi with rfl | ⟨p, rfl, rfl⟩ | hrow
  · rfl
  · exact congrArg encodeCommand (pageSelect_eq_ofNat p)
  · exact encode_commandRows (c, i) hrow

/-! FLUSH_STEP and the completion of a worker write. -/

theorem FlushReady.free {s : State} {m : Memory} (ready : FlushReady s m) : s.bus = .free := by
  obtain ⟨-, -, -, -, free⟩ := ready
  exact free

theorem FlushReady.slotInv {s : State} {m : Memory} (ready : FlushReady s m) : SlotInv s := by
  obtain ⟨-, -, -, hslot, -⟩ := ready
  exact hslot

/-- The WORKER's next write during a job (43_protocol_encoder.md R217). -/
theorem FlushReady.workerNextWrite_eq {s : State} {m : Memory} (ready : FlushReady s m) :
    workerNextWrite s = slotBytes m s.fpage s.fslot := by
  obtain ⟨alive, running, hm, -⟩ := ready
  simp [workerNextWrite, alive, running, hm]

/-- Every slot that is held has a write (10_state.md R28). -/
theorem exists_slotBytes (m : Memory) (p : BitVec 3) {s : BitVec 4} (h : s.toNat ≤ 10) :
    ∃ bytes, slotBytes m p s = some bytes := by
  unfold slotBytes
  split
  · exact ⟨_, rfl⟩
  · exact ⟨_, rfl⟩
  · exact ⟨_, rfl⟩
  · exact ⟨_, if_pos h⟩

theorem execFlushStep_ready {s : State} {m : Memory} {bytes : List Byte} (actor : s.actor = .worker)
    (ready : FlushReady s m) (slot : slotBytes m s.fpage s.fslot = some bytes) :
    exec .flushStep s = .next (busIssue .worker bytes s) := by
  have due : nextWrite .worker s = some bytes := ready.workerNextWrite_eq.trans slot
  obtain ⟨alive, -, -, -, free⟩ := ready
  rw [exec, execFlushStep, agentDo_ready actor alive, issueNext_ready free due]

/-- Settles O30: the position has a write, and it is issued. -/
theorem flushStepIssuesItsSlot : Obligations.FlushStepIssuesItsSlot := by
  intro s m actor ready
  obtain ⟨bytes, hbytes⟩ := exists_slotBytes m s.fpage ready.slotInv
  exact ⟨bytes, hbytes, execFlushStep_ready actor ready hbytes⟩

/-- The end of a job, with the token as the parameter has it (41_scheduler_dispatcher.md R147). -/
theorem jobEnd_eq (r : FlushResult) (s : State) :
    jobEnd r s = { s with
      jobrun := false, fres := r, gate := if s.gateRelease = .onComplete then false else s.gate } := by
  rw [jobEnd, gateAtEnd_eq_ite]

/-- Settles O31: the completion is the WORKER's continuation for either answer. -/
theorem workerWriteContinues : Obligations.WorkerWriteContinues := by
  intro s bytes busy
  constructor
  · rw [takeStep_bus_of_busy busy, ownerContinue, workerContinue, jobEnd_eq]
  · rw [takeStep_bus_of_busy busy, ownerContinue, workerContinue, jobEnd_eq]

/-! CMD, DATA and the HOST's issue step. -/

/-- Settles O34: the presenting steps, DATA with the bytes of now. -/
theorem cmdAndDataTakeTheirBytes : Obligations.CmdAndDataTakeTheirBytes := by
  refine ⟨fun s c ready => ?_, fun s m p k ready hm => ?_⟩
  · rw [exec, execCmd, hostDo_ready ready]
    rfl
  · rw [exec, execData, hostDo_ready ready, withDb, hm]
    rfl

theorem takeStep_hostIssue_ready {s : State} {bytes : List Byte} (free : s.bus = .free)
    (due : hostNextWrite s = some bytes) : takeStep .hostIssue s = .next (busIssue .host bytes s) :=
  congrArg Host.Outcome.next (issueNext_ready free due)

theorem hostNextWrite_of_init {s : State} {b : Byte} (init : s.hs = .init) (hb : script[s.hidx.toNat]? = some b) :
    hostNextWrite s = some [0x00, b] := by
  simp only [hostNextWrite, init, hb]
  rfl

theorem hostNextWrite_of_contrast_first {s : State} (contrast : s.hs = .contrast) (hidx : s.hidx = 0) :
    hostNextWrite s = some [0x00, 0x81] := by
  simp only [hostNextWrite, contrast, hidx]
  rfl

theorem hostNextWrite_of_contrast_second {s : State} {b : Byte} {bs : List Byte} (contrast : s.hs = .contrast)
    (hidx : s.hidx ≠ 0) (harg : s.harg = b :: bs) : hostNextWrite s = some [0x00, b] := by
  simp only [hostNextWrite, contrast, hidx, harg]
  rfl

/-- Settles O35: the write that is due, by the sequence. -/
theorem hostIssueSendsItsWrite : Obligations.HostIssueSendsItsWrite := by
  refine fun s free => ⟨fun hs => ?_, fun b init hb => ?_, fun contrast hidx => ?_, fun b bs contrast hidx harg => ?_⟩
  · have due : hostNextWrite s = some s.harg := by rcases hs with hs | hs <;> simp [hostNextWrite, hs]
    exact takeStep_hostIssue_ready free due
  · exact takeStep_hostIssue_ready free (hostNextWrite_of_init init hb)
  · exact takeStep_hostIssue_ready free (hostNextWrite_of_contrast_first contrast hidx)
  · exact takeStep_hostIssue_ready free (hostNextWrite_of_contrast_second contrast hidx harg)

/-! The rows at their positions. -/

/-- The named bytes of the script: each is encoded as the write of its index, and its parameter stands next in the script
(44_init_contrast.md R241). -/
theorem script_namedRows :
    ∀ row ∈ [(0, (0xAE : Byte), Instr.cbDisplayOff, none), (1, 0xD5, .cbClockDivide, some (0x80 : Byte)),
        (3, 0xA8, .cbMultiplex, some 0x3F), (5, 0xD3, .cbDisplayOffset, some 0x00), (7, 0x40, .cbStartLine, none),
        (8, 0xA1, .cbSegmentRemap, none), (9, 0xC8, .cbComScan, none), (10, 0xDA, .cbComPins, some 0x12),
        (12, 0x81, .cbInitContrast, some 0x7F), (14, 0xA4, .cbEntireDisplay, none),
        (15, 0xA6, .cbNormalPolarity, none), (16, 0x8D, .cbChargePump, some 0x14),
        (18, 0x20, .cbAddressingMode, some 0x02), (20, 0xAF, .cbDisplayOn, none)],
      encode row.2.2.1 = .bytes [0x00, row.2.1] ∧ script[row.1]? = some row.2.1 ∧
        ∀ b, row.2.2.2 = some b → script[row.1 + 1]? = some b := by
  intro row h
  fin_cases h <;> exact ⟨rfl, rfl, fun b hb => by cases hb <;> rfl⟩

/-- After the success of a script write, the next is due (44_init_contrast.md R244). -/
theorem hostNextWrite_after_script {s : State} {bytes : List Byte} {idx : Nat} {b : Byte}
    (busy : s.bus = .busy .host bytes) (init : s.hs = .init) (hidx : s.hidx = BitVec.ofNat 5 idx)
    (hb : script[idx + 1]? = some b) :
    ∃ u, takeStep (.bus .ok) s = .next u ∧ nextWrite .host u = some [0x00, b] := by
  refine ⟨_, takeStep_bus_of_init busy init .ok, hostNextWrite_of_init ?_ ?_⟩
  all_goals
    obtain ⟨hlt, -⟩ := List.getElem?_eq_some_iff.1 hb
    have hlt : idx + 1 < 21 := hlt
    have hnow : (BitVec.ofNat 5 idx).toNat = idx := by
      rw [BitVec.toNat_ofNat]
      omega
    simp only [initContinue, hidx, hnow]
    rw [if_pos (by omega)]
  · exact init
  · have hnext : (BitVec.ofNat 5 idx + 1).toNat = idx + 1 := by bv_omega
    simpa only [hnext] using hb

/-- Settles O38: the rows of the script. -/
theorem scriptRowsAreInitWrites : Obligations.ScriptRowsAreInitWrites := by
  intro s idx c i param actor init free hidx hrow
  obtain ⟨row, hc, hparam⟩ := script_namedRows (idx, c, i, param) hrow
  have hlt : idx < 21 := (List.getElem?_eq_some_iff.1 hc).1
  have hnow : s.hidx.toNat = idx := by
    rw [hidx, BitVec.toNat_ofNat]
    omega
  have due : nextWrite .host s = some [0x00, c] := hostNextWrite_of_init init (hnow ▸ hc)
  refine ⟨_, exec_busRow_ready row ⟨by rw [actor]; rfl, due, free⟩, rfl, fun b hb => ?_⟩
  exact hostNextWrite_after_script (s := busIssue .host [0x00, c] s) rfl init hidx (hparam b hb)

/-- After the success of the first write of CONTRAST_SET, the second is due (44_init_contrast.md R251). -/
theorem hostNextWrite_after_contrast {s : State} {bytes : List Byte} {v : Byte} (busy : s.bus = .busy .host bytes)
    (contrast : s.hs = .contrast) (hidx : s.hidx = 0) (harg : s.harg = [v]) :
    ∃ u, takeStep (.bus .ok) s = .next u ∧ nextWrite .host u = some [0x00, v] := by
  refine ⟨_, takeStep_bus_of_contrast busy contrast .ok, ?_⟩
  simp only [contrastContinue, if_pos hidx]
  exact hostNextWrite_of_contrast_second contrast (show (1 : BitVec 5) ≠ 0 by decide) harg

/-- Settles O39: the WORKER's slots, and the pair. -/
theorem flushAndContrastRowsIssue : Obligations.FlushAndContrastRowsIssue := by
  refine ⟨fun s m actor ready => ?flush, fun s v actor contrast hidx harg free => ?pair⟩
  case flush =>
    have sender {bytes : List Byte} (slot : slotBytes m s.fpage s.fslot = some bytes) :
        SenderReady .worker bytes s :=
      ⟨by rw [actor]; rfl, ready.workerNextWrite_eq.trans slot, ready.free⟩
    refine ⟨fun slot => ⟨_, rfl, exec_busRow_ready ?_ (sender ?_)⟩, fun slot => exec_busRow_ready rfl (sender ?_),
      fun slot => exec_busRow_ready rfl (sender ?_)⟩
    · exact congrArg encodeCommand (pageSelect_eq_ofNat _)
    · rw [slot, ← pageSelect_eq_ofNat]
      rfl
    · rw [slot]
      rfl
    · rw [slot]
      rfl
  case pair =>
    have due : nextWrite .host s = some [0x00, 0x81] := hostNextWrite_of_contrast_first contrast hidx
    obtain ⟨u, hu, hnext⟩ :=
      hostNextWrite_after_contrast (s := busIssue .host [0x00, 0x81] s) rfl contrast hidx harg
    exact ⟨_, u, exec_busRow_ready rfl ⟨by rw [actor]; rfl, due, free⟩, rfl, hu, hnext⟩

/-! Steps that are not enabled. -/

/-- Settles O10: each step by the condition it misses. -/
theorem stepsNotEnabledHold : Obligations.StepsNotEnabledHold := by
  refine ⟨fun s actor alive armed => ?tick, fun s actor alive hjob => ?jobStart, fun s actor alive hflush => ?flushStep,
    fun s hissue => ?hostIssue, fun s hdrain => ?hostRelease, fun s r free => ?bus,
    fun s i bytes o row sender notDue => exec_busRow_holds row sender notDue⟩
  case tick =>
    rw [exec, execTick, agentDo_ready actor alive, if_neg (by simp [armed])]
    rfl
  case jobStart =>
    rw [exec, execJobStart, agentDo_ready actor alive, if_neg (by rcases hjob with h | h <;> simp [h])]
    rfl
  case flushStep =>
    rw [exec, execFlushStep, agentDo_ready actor alive]
    rcases hflush with notRunning | busy
    · simp [issueNext, nextWrite, workerNextWrite, notRunning]
    · rw [issueNext_of_busy busy]
  case hostIssue =>
    rw [takeStep, hostIssue]
    rcases hissue with idle | teardown | busy
    · simp [issueNext, nextWrite, hostNextWrite, idle]
    · simp [issueNext, nextWrite, hostNextWrite, teardown]
    · rw [issueNext_of_busy busy]
  case hostRelease =>
    rw [takeStep, hostRelease, if_neg]
    · rfl
    · rintro ⟨waits, jobq, jobrun, free⟩
      simp [waits, jobq, jobrun, free] at hdrain
  case bus =>
    rw [takeStep, busComplete, free]
    rfl

/-! Refusals by context. -/

/-- The operations of the HOST alone, and the HOST's forms of REQ_FLUSH and of the converter, are under the HOST's checks
(60_exceptions.md R283). -/
theorem exec_eq_hostDo {i : Instr} {c : Byte} {p k : BitVec 3} {v : BitVec 32} {nn : Bool} {x y : BitVec 16}
    (h : i ∈ Instr.reqFlush :: [.cmd c, .data p k, .init, .contrastGet, .contrastSet v nn, .arm, .disarm, .teardown] ++
      [.sync, .pixelSet x y, .pixelClear x y, .pixelToggle x y]) :
    ∃ f, ∀ s, exec i s = hostDo s f := by
  rcases List.mem_append.1 h with h | h
  · simp only [List.mem_cons, List.not_mem_nil, or_false] at h
    rcases h with rfl | rfl | rfl | rfl | rfl | rfl | rfl | rfl | rfl
    · exact ⟨_, fun s => by rw [exec, execReqFlush]⟩
    · exact ⟨_, fun s => by rw [exec, execCmd]⟩
    · exact ⟨_, fun s => by rw [exec, execData]⟩
    · exact ⟨_, fun s => by rw [exec, execInit]⟩
    · exact ⟨_, fun s => by rw [exec, execContrastGet]⟩
    · exact ⟨_, fun s => by rw [exec, execContrastSet]⟩
    · exact ⟨_, fun s => by rw [exec, execArm]⟩
    · exact ⟨_, fun s => by rw [exec, execDisarm]⟩
    · exact ⟨_, fun s => by rw [exec, execTeardown]⟩
  · obtain ⟨f, hf⟩ := exec_eq_hostDb (x := x) (y := y) (by simpa using h)
    exact ⟨_, fun s => by rw [hf, hostDb]⟩

/-- The operations of the TIMER and of the WORKER are under their context's checks. -/
theorem exec_eq_agentDo {i : Instr} (h : i = .tick ∨ i = .flushStep ∨ i = .jobStart) :
    ∃ a f, ∀ s, exec i s = agentDo a s f := by
  rcases h with rfl | rfl | rfl
  · exact ⟨_, _, fun s => by rw [exec, execTick]⟩
  · exact ⟨_, _, fun s => by rw [exec, execFlushStep]⟩
  · exact ⟨_, _, fun s => by rw [exec, execJobStart]⟩

/-- Settles O28: each refusal is the check's, of the HOST, of the TIMER and the WORKER, or of a bus row. -/
theorem contextRefusals : Obligations.ContextRefusals := by
  intro s i c p k v nn x y refused hostOnly converter
  have hostWrong (hi : i ∈ Instr.reqFlush :: hostOnly ++ converter) (alive : s.alive = true) (actor : s.actor ≠ .host) :
      refused .wrongIssuer := by
    obtain ⟨f, hf⟩ := exec_eq_hostDo hi
    exact (hf s).trans (hostDo_wrongIssuer actor alive f)
  refine ⟨fun hi => hostWrong (List.mem_append_left _ (List.mem_cons_of_mem _ hi)), fun hi alive actor => ?converter,
    fun hi alive actor => ?reqFlush, fun hi alive actor => ?tick, fun hi alive actor => ?worker,
    fun hi released => ?released, fun hi actor alive busy => ?busy, fun bytes row actor => ?busRow⟩
  case converter => exact hostWrong (List.mem_append_right _ hi) alive (by simp [actor])
  case reqFlush => exact hostWrong (hi ▸ List.mem_cons_self) alive (by simp [actor])
  case tick => subst hi; exact agentDo_wrongIssuer actor alive _
  case worker =>
    rcases hi with rfl | rfl
    · exact agentDo_wrongIssuer actor alive _
    · exact agentDo_wrongIssuer actor alive _
  case released =>
    have hcheck : (i = .tick ∨ i = .flushStep ∨ i = .jobStart) ∨ i ∈ Instr.reqFlush :: hostOnly ++ converter := by
      simpa only [List.mem_append, List.mem_cons, List.not_mem_nil, or_false, or_assoc] using hi
    rcases hcheck with hi | hi
    · obtain ⟨a, f, hf⟩ := exec_eq_agentDo hi
      exact (hf s).trans (agentDo_released released a f)
    · obtain ⟨f, hf⟩ := exec_eq_hostDo hi
      exact (hf s).trans (hostDo_released released f)
  case busy =>
    obtain ⟨f, hf⟩ := exec_eq_hostDo hi
    exact (hf s).trans (hostDo_hostBusy actor alive busy f)
  case busRow =>
    refine ⟨fun alive => ?_, fun released => ?_⟩
    · exact (exec_busRow_timer row actor).trans (by rw [if_pos alive]; rfl)
    · exact (exec_busRow_timer row actor).trans (by rw [if_neg (by simp [released])]; rfl)

end Sys2Proof.Machine
end

section
/-! Runs of the machine (00_scope.md R7, 20_memory.md R73): the step takes the first pending step, a pair of an issue and a
completion is one write, and a flush, INIT and CONTRAST_SET are their writes one after another. -/

namespace Sys2Proof.Machine

/-! One step. -/

theorem step_of_pending {s : State} {a : AgentStep} {rest : List AgentStep} (h : s.pending = a :: rest) :
    step s = takeStep a { s with pending := rest } := by
  simp only [step, nextStep, h]

theorem step_of_none_pending {s : State} (h : s.pending = []) :
    step s = takeStep (Config.agentStep s.draws) { s with draws := s.draws + 1 } := by
  simp only [step, nextStep, h]

theorem takeStep_op {a : Issuer} {w : OpWord} {i : Instr} (h : decodeWord w = .ok i) (s : State) :
    takeStep (.op a w) s = exec i (s.actAs a) := by
  simp only [takeStep, presentWord, h]

theorem takeStep_op_reserved {a : Issuer} {w : OpWord} {e : DecodeError} (h : decodeWord w = .error e) (s : State) :
    takeStep (.op a w) s = .next (refuse .reservedBits (s.actAs a)) := by
  simp only [takeStep, presentWord, h]

theorem takeStep_write {a : Issuer} {bytes : List Byte} {i : Instr} (h : decodeWrite bytes = .ok i) (s : State) :
    takeStep (.write a bytes) s = exec i (s.actAs a) := by
  simp only [takeStep, presentWrite, h]

/-- Settles O7: the pending step, taken by its agent. -/
theorem stepRunsDecodedInstruction : Obligations.StepRunsDecodedInstruction :=
  ⟨fun _ _ _ _ _ hp hw => (step_of_pending hp).trans (takeStep_op hw _),
    fun _ _ _ _ _ hp hw => (step_of_pending hp).trans (takeStep_op_reserved hw _),
    fun _ _ _ _ _ hp hw => (step_of_pending hp).trans (takeStep_write hw _),
    fun _ _ _ hp => step_of_pending hp, fun _ hp => step_of_none_pending hp⟩

theorem Except.eq_ok_of_toOption {ε α : Type} {e : Except ε α} {a : α} (h : e.toOption = some a) : e = .ok a := by
  cases e <;> cases h
  rfl

/-- Settles O8: the placed step is the first pending one; a bus row is also due at the HOST's sequencer. -/
theorem placedWordRunsNext : Obligations.PlacedWordRunsNext := by
  refine ⟨fun s nbits w i wide hdecode => ?_, fun s nbits w i narrow hdecode => ?_⟩
  · rw [decodeTableWord, if_neg (by simp [wide])] at hdecode
    have hw := Except.eq_ok_of_toOption hdecode
    rw [State.withFetchWord, placeWord, if_neg (by simp [wide]), step_of_pending rfl, takeStep_op hw]
    rfl
  · rw [decodeTableWord, if_pos narrow] at hdecode
    have hw := Except.eq_ok_of_toOption hdecode
    rw [State.withFetchWord, placeWord, if_pos narrow, step_of_pending rfl, takeStep_write hw]
    refine ⟨_, rfl, rfl, ?_, rfl, rfl⟩
    simp only [nextWrite, hostNextWrite, State.actAs]
    split_ifs <;> rfl

/-! Some steps. -/

theorem runSteps_succ {k : Nat} {s t : State} (h : step s = .next t) : runSteps (k + 1) s = runSteps k t := by
  simp only [runSteps, h]

theorem runSteps_add {j k : Nat} {s t : State} (h : runSteps j s = .next t) : runSteps (j + k) s = runSteps k t := by
  induction j generalizing s with
  | zero =>
    cases h
    rw [Nat.zero_add]
  | succ j ih =>
    obtain ⟨u, hu⟩ := nothingStopsTheBlock s
    rw [runSteps_succ hu] at h
    rw [Nat.add_right_comm, runSteps_succ hu, ih h]

/-! Requests in a row (41_scheduler_dispatcher.md R143, R144, R149). -/

/-- The HOST presents in the state in which it already acts. -/
theorem HostReady.actAs_host {s : State} (ready : HostReady s) : s.actAs .host = s := by
  obtain ⟨actor, -, -⟩ := ready
  rw [State.actAs, ← actor]

theorem step_reqFlush {s : State} {rest : List AgentStep} (ready : HostReady s)
    (pending : s.pending = .op .host 0x2 :: rest) :
    step s = .next { s with
      pending := rest, gate := true, jobq := s.jobq || !s.gate, hres := .resOk, hval := if s.gate then 0 else 1 } := by
  have ready : HostReady { s with pending := rest } := ready
  rw [step_of_pending pending, takeStep_op (i := .reqFlush) rfl, ready.actAs_host, execReqFlush_ready ready]
  cases s.gate <;> simp [admitJob, finish]

/-- Settles O23, by induction on the number of requests: the first sets the token, the others find it set. -/
theorem manyRequestsAdmitOneJob : Obligations.ManyRequestsAdmitOneJob := by
  intro n
  induction n with
  | zero =>
    intro s rest ready pending
    rw [runSteps_succ (step_reqFlush ready pending)]
    cases s.gate <;> simp [runSteps]
  | succ n ih =>
    intro s rest ready pending
    rw [runSteps_succ (step_reqFlush ready pending)]
    refine Eq.trans (ih _ rest ready rfl) ?_
    simp

/-! One write. -/

/-- An issue and the completion after it: the write is in the trace, and its owner goes on. -/
theorem runSteps_write {s : State} {a : AgentStep} {o : Owner} {bytes : List Byte} {r : BusResult} {c : Issuer}
    {rest : List AgentStep} (free : s.bus = .free) (pending : s.pending = a :: .bus r :: rest)
    (issues : takeStep a { s with pending := .bus r :: rest } =
      .next (busIssue o bytes { s with pending := .bus r :: rest, actor := c })) :
    runSteps 2 s = .next (ownerContinue o r { s with
      pending := rest, actor := c, trace := s.trace ++ [.issue o bytes, .done o r] }) := by
  rw [runSteps_succ ((step_of_pending pending).trans issues), runSteps, step_of_pending rfl,
    takeStep_bus_of_busy (o := o) (bytes := bytes) rfl]
  simp [runSteps, busIssue, ← free]

theorem runSteps_hostWrite {s : State} {bytes : List Byte} {r : BusResult} {rest : List AgentStep}
    (free : s.bus = .free) (due : hostNextWrite s = some bytes) (pending : s.pending = .hostIssue :: .bus r :: rest) :
    runSteps 2 s = .next (hostContinue r { s with
      pending := rest, trace := s.trace ++ [.issue .host bytes, .done .host r] }) :=
  runSteps_write (c := s.actor) free pending
    (takeStep_hostIssue_ready (s := { s with pending := .bus r :: rest }) free due)

theorem runSteps_flushWrite {s : State} {m : Memory} {bytes : List Byte} {r : BusResult} {rest : List AgentStep}
    (ready : FlushReady s m) (slot : slotBytes m s.fpage s.fslot = some bytes)
    (pending : s.pending = .op .worker 0x5 :: .bus r :: rest) :
    runSteps 2 s = .next (workerContinue r { s with
      pending := rest, actor := .worker, trace := s.trace ++ [.issue .worker bytes, .done .worker r] }) := by
  refine runSteps_write (o := .worker) ready.free pending ?_
  rw [takeStep_op (i := .flushStep) rfl]
  exact execFlushStep_ready (s := { s with pending := .bus r :: rest, actor := .worker }) rfl ready slot

theorem okTrace_append (o : Owner) (ws ws' : List (List Byte)) :
    okTrace o (ws ++ ws') = okTrace o ws ++ okTrace o ws' := List.flatMap_append

/-- The trace of one write more. -/
theorem okTrace_take_succ (o : Owner) {ws : List (List Byte)} {n : Nat} {bytes : List Byte} (h : ws[n]? = some bytes) :
    okTrace o (ws.take (n + 1)) = okTrace o (ws.take n) ++ [.issue o bytes, .done o .ok] := by
  rw [List.take_add_one, h, okTrace_append]
  rfl

/-! A flush (43_protocol_encoder.md R217 to R220). -/

/-- Write `n` of a flush is that of slot `n mod 11` of page `n div 11`. -/
theorem map_some_flushWrites (m : Memory) :
    (flushWrites m).map some =
      (List.range 88).map fun n => slotBytes m (BitVec.ofNat 3 (n / 11)) (BitVec.ofNat 4 (n % 11)) := rfl

theorem length_flushWrites (m : Memory) : (flushWrites m).length = 88 := rfl

theorem length_dataWrite (m : Memory) (p k : Nat) : (dataWrite m p k).length = 17 := by
  simp [dataWrite, Config.chunk]

/-- Eight pages of three command writes and eight data writes (R220). -/
theorem sum_length_flushWrites (m : Memory) : ((flushWrites m).map List.length).sum = 1136 := by
  simp only [flushWrites, List.map_flatMap, List.map_append, List.map_cons, List.map_map, Function.comp_def,
    length_dataWrite]
  rfl

theorem slotBytes_position {m : Memory} {n : Nat} {bytes : List Byte} (h : (flushWrites m)[n]? = some bytes) :
    slotBytes m (BitVec.ofNat 3 (n / 11)) (BitVec.ofNat 4 (n % 11)) = some bytes := by
  have hn : n < 88 := (List.getElem?_eq_some_iff.1 h).1
  have hmap := congrArg (·[n]?) (map_some_flushWrites m)
  simpa [h, List.getElem?_range hn, eq_comm] using hmap

/-- The success of a write before the last moves to the next position (R218). -/
theorem workerContinue_ok_position {s : State} {n : Nat} (page : s.fpage = BitVec.ofNat 3 (n / 11))
    (slot : s.fslot = BitVec.ofNat 4 (n % 11)) (hn : n < 87) :
    workerContinue .ok s =
      { s with fpage := BitVec.ofNat 3 ((n + 1) / 11), fslot := BitVec.ofNat 4 ((n + 1) % 11) } := by
  have hpage : (BitVec.ofNat 3 (n / 11)).toNat = n / 11 := by
    rw [BitVec.toNat_ofNat]
    omega
  have hslot : (BitVec.ofNat 4 (n % 11)).toNat = n % 11 := by
    rw [BitVec.toNat_ofNat]
    omega
  simp only [workerContinue, page, slot, hpage, hslot]
  by_cases hlast : n % 11 < 10
  · have hpage' : (n + 1) / 11 = n / 11 := by omega
    have hslot' : (n + 1) % 11 = n % 11 + 1 := by omega
    rw [if_pos hlast, hpage', hslot', BitVec.ofNat_add, ← page]
    rfl
  · have hpage' : (n + 1) / 11 = n / 11 + 1 := by omega
    have hslot' : (n + 1) % 11 = 0 := by omega
    rw [if_neg hlast, if_pos (by omega), hpage', hslot', BitVec.ofNat_add]
    rfl

theorem FlushReady.at_position {s : State} {m : Memory} (ready : FlushReady s m) (n : Nat) {c : Issuer}
    {p : List AgentStep} {trace : List TxEvent} :
    FlushReady { s with
      pending := p, actor := c, trace := trace, fpage := BitVec.ofNat 3 (n / 11), fslot := BitVec.ofNat 4 (n % 11) } m := by
  obtain ⟨alive, running, hm, -, free⟩ := ready
  refine ⟨alive, running, hm, ?_, free⟩
  rw [BitVec.toNat_ofNat]
  omega

theorem flushAll_succ (n : Nat) (rest : List AgentStep) :
    flushAll (n + 1) ++ rest = flushAll n ++ .op .worker 0x5 :: .bus .ok :: rest := by
  simp [flushAll, List.replicate_succ']

/-- The first `n` writes of a flush, all successful, by induction on `n`. -/
theorem runSteps_flush_successes {s : State} {m : Memory} (ready : FlushReady s m) (page : s.fpage = 0)
    (slot : s.fslot = 0) {n : Nat} (hn : n ≤ 87) {rest : List AgentStep} (pending : s.pending = flushAll n ++ rest) :
    ∃ c, runSteps (2 * n) s = .next { s with
      pending := rest, actor := c, trace := s.trace ++ okTrace .worker ((flushWrites m).take n)
      fpage := BitVec.ofNat 3 (n / 11), fslot := BitVec.ofNat 4 (n % 11) } := by
  induction n generalizing rest with
  | zero =>
    refine ⟨s.actor, ?_⟩
    have pending : s.pending = rest := pending
    have page : s.fpage = BitVec.ofNat 3 (0 / 11) := page
    have slot : s.fslot = BitVec.ofNat 4 (0 % 11) := slot
    rw [← pending, ← page, ← slot, List.take_zero, okTrace, List.flatMap_nil, List.append_nil]
    rfl
  | succ n ih =>
    obtain ⟨c, hc⟩ := ih (by omega) (pending.trans (flushAll_succ n rest))
    obtain ⟨bytes, hbytes⟩ : ∃ bytes, (flushWrites m)[n]? = some bytes :=
      ⟨_, List.getElem?_eq_getElem (by rw [length_flushWrites]; omega)⟩
    refine ⟨.worker, (runSteps_add hc).trans ?_⟩
    refine Eq.trans (runSteps_flushWrite (ready.at_position n) (slotBytes_position hbytes) rfl) ?_
    rw [workerContinue_ok_position (n := n) rfl rfl (by omega), okTrace_take_succ _ hbytes, ← List.append_assoc]

/-- Settles O32: the first 87 writes, and the last, whose success ends the job. -/
theorem flushIssues88Writes : Obligations.FlushIssues88Writes := by
  intro s m rest ready page slot pending
  refine ⟨length_flushWrites m, sum_length_flushWrites m, ?_⟩
  obtain ⟨c, hc⟩ := runSteps_flush_successes ready page slot (n := 87) (by decide)
    (pending.trans (flushAll_succ 87 rest))
  have hlast : (flushWrites m)[87]? = some (dataWrite m 7 7) := rfl
  refine (runSteps_add (k := 2) hc).trans ?_
  refine Eq.trans (runSteps_flushWrite (ready.at_position 87) (slotBytes_position hlast) rfl) ?_
  have hwrites : (flushWrites m).take 88 = flushWrites m := rfl
  rw [← hwrites, okTrace_take_succ _ hlast, ← List.append_assoc]
  exact congrArg Host.Outcome.next (jobEnd_eq .resOk _)

/-- Settles O33: the writes before the failure, and the failed one, which ends the job at its position. -/
theorem failedFlushStopsAtItsWrite : Obligations.FailedFlushStopsAtItsWrite := by
  intro s m rest n bytes ready page slot hbytes pending
  have hn : n < 88 := (List.getElem?_eq_some_iff.1 hbytes).1
  obtain ⟨c, hc⟩ := runSteps_flush_successes ready page slot (by omega) pending
  refine (runSteps_add hc).trans ?_
  refine Eq.trans (runSteps_flushWrite (ready.at_position n) (slotBytes_position hbytes) rfl) ?_
  rw [workerContinue, jobEnd_eq]

/-! INIT (44_init_contrast.md R242 to R246). -/

theorem hostWrites_succ (n : Nat) (rest : List AgentStep) :
    hostWrites (n + 1) ++ rest = hostWrites n ++ .hostIssue :: .bus .ok :: rest := by
  simp [hostWrites, List.replicate_succ']

/-- The write of INIT at a script index. -/
theorem hostNextWrite_at_index {s : State} {n : Nat} {bytes : List Byte} (init : s.hs = .init)
    (hidx : s.hidx = BitVec.ofNat 5 n) (h : initWrites[n]? = some bytes) : hostNextWrite s = some bytes := by
  obtain ⟨hn, -⟩ := List.getElem?_eq_some_iff.1 h
  have hn : n < 21 := hn
  have hnow : s.hidx.toNat = n := by
    rw [hidx, BitVec.toNat_ofNat]
    omega
  rw [initWrites, List.getElem?_map] at h
  obtain ⟨b, hb, rfl⟩ := Option.map_eq_some_iff.1 h
  exact hostNextWrite_of_init init (hnow ▸ hb)

/-- The success of a write before the last moves to the next index (R244). -/
theorem hostContinue_ok_index {s : State} {n : Nat} (init : s.hs = .init) (hidx : s.hidx = BitVec.ofNat 5 n)
    (hn : n < 20) : hostContinue .ok s = { s with hidx := BitVec.ofNat 5 (n + 1) } := by
  have hnow : (BitVec.ofNat 5 n).toNat = n := by
    rw [BitVec.toNat_ofNat]
    omega
  simp only [hostContinue, init, initContinue, hidx, hnow]
  rw [if_pos hn, BitVec.ofNat_add, ← init]
  rfl

/-- The first `n` writes of INIT, all successful, by induction on `n`. -/
theorem runSteps_init_successes {s : State} (init : s.hs = .init) (hidx : s.hidx = 0) (free : s.bus = .free) {n : Nat}
    (hn : n ≤ 20) {rest : List AgentStep} (pending : s.pending = hostWrites n ++ rest) :
    runSteps (2 * n) s = .next { s with
      pending := rest, trace := s.trace ++ okTrace .host (initWrites.take n), hidx := BitVec.ofNat 5 n } := by
  induction n generalizing rest with
  | zero =>
    have pending : s.pending = rest := pending
    have hidx : s.hidx = BitVec.ofNat 5 0 := hidx
    rw [← pending, ← hidx, List.take_zero, okTrace, List.flatMap_nil, List.append_nil]
    rfl
  | succ n ih =>
    have hfirst := ih (by omega) (pending.trans (hostWrites_succ n rest))
    obtain ⟨bytes, hbytes⟩ : ∃ bytes, initWrites[n]? = some bytes :=
      ⟨_, List.getElem?_eq_getElem (show n < 21 by omega)⟩
    refine (runSteps_add hfirst).trans ?_
    refine Eq.trans (runSteps_hostWrite free (hostNextWrite_at_index init rfl hbytes) rfl) ?_
    refine congrArg Host.Outcome.next (Eq.trans (hostContinue_ok_index (n := n) init rfl (by omega)) ?_)
    rw [okTrace_take_succ _ hbytes, ← List.append_assoc]

theorem step_init {s : State} {rest : List AgentStep} (ready : HostReady s) (armed : s.armed = false)
    (jobq : s.jobq = false) (jobrun : s.jobrun = false) (pending : s.pending = .op .host 0x8 :: rest) :
    step s = .next { s with pending := rest, initok := false, hs := .init, hidx := 0, harg := [] } := by
  have ready : HostReady { s with pending := rest } := ready
  rw [step_of_pending pending, takeStep_op (i := .init) rfl, ready.actAs_host]
  exact initStartsItsScript _ ready armed jobq jobrun

/-- INIT and its first `n` writes, all successful. -/
theorem runSteps_init_and_successes {s : State} (ready : HostReady s) (armed : s.armed = false)
    (jobq : s.jobq = false) (jobrun : s.jobrun = false) (free : s.bus = .free) {n : Nat} (hn : n ≤ 20)
    {rest : List AgentStep} (pending : s.pending = .op .host 0x8 :: (hostWrites n ++ rest)) :
    runSteps (2 * n + 1) s = .next { s with
      pending := rest, initok := false, hs := .init, harg := [], hidx := BitVec.ofNat 5 n
      trace := s.trace ++ okTrace .host (initWrites.take n) } :=
  (runSteps_succ (step_init ready armed jobq jobrun pending)).trans
    (runSteps_init_successes (s := { s with
      pending := hostWrites n ++ rest, initok := false, hs := .init, hidx := 0, harg := [] }) rfl rfl free hn rfl)

/-- Settles O42: the first 20 writes, and the last, whose success ends INIT. -/
theorem initIssues21Writes : Obligations.InitIssues21Writes := by
  intro s rest ready armed jobq jobrun free pending literal
  have pending : s.pending = .op .host 0x8 :: (hostWrites 20 ++ .hostIssue :: .bus .ok :: rest) :=
    pending.trans (congrArg (List.cons _) (hostWrites_succ 20 rest))
  have hlast : initWrites[20]? = some [0x00, 0xAF] := rfl
  refine (runSteps_add (k := 2)
    (runSteps_init_and_successes ready armed jobq jobrun free (n := 20) (by decide) pending)).trans ?_
  refine Eq.trans (runSteps_hostWrite free (hostNextWrite_at_index rfl rfl hlast) rfl) ?_
  have hwrites : (literal.map fun b => [0x00, b]) = initWrites.take 21 := rfl
  rw [hwrites, okTrace_take_succ _ hlast, ← List.append_assoc]
  rfl

/-- Settles O43: the writes before the failure, and the failed one, which ends INIT. -/
theorem failedInitStopsAtItsWrite : Obligations.FailedInitStopsAtItsWrite := by
  intro s rest n bytes ready armed jobq jobrun free hbytes pending
  obtain ⟨hn, -⟩ := List.getElem?_eq_some_iff.1 hbytes
  have hn : n < 21 := hn
  refine (runSteps_add (j := 2 * n + 1) (k := 2)
    (runSteps_init_and_successes ready armed jobq jobrun free (by omega) pending)).trans ?_
  refine Eq.trans (runSteps_hostWrite free (hostNextWrite_at_index rfl rfl hbytes) rfl) ?_
  rfl

/-! CONTRAST_SET (44_init_contrast.md R250 to R252). -/

/-- The first write of an accepted set, and the HOST's continuation after it. -/
theorem runSteps_contrast_first {s : State} {r : BusResult} {rest : List AgentStep} (contrast : s.hs = .contrast)
    (hidx : s.hidx = 0) (free : s.bus = .free) (pending : s.pending = .hostIssue :: .bus r :: rest) :
    runSteps 2 s = .next (contrastContinue r { s with
      pending := rest, trace := s.trace ++ [.issue .host [0x00, 0x81], .done .host r] }) := by
  rw [runSteps_hostWrite free (hostNextWrite_of_contrast_first contrast hidx) pending, hostContinue, contrast]

/-- The first write with success, and the second, of the accepted value. -/
theorem runSteps_contrast_second {s : State} {c : Byte} {r : BusResult} {rest : List AgentStep}
    (contrast : s.hs = .contrast) (hidx : s.hidx = 0) (harg : s.harg = [c]) (free : s.bus = .free)
    (pending : s.pending = hostWrites 1 ++ .hostIssue :: .bus r :: rest) :
    runSteps 4 s = .next (contrastContinue r { s with
      pending := rest, hidx := 1
      trace := s.trace ++ okTrace .host [[0x00, 0x81]] ++ [.issue .host [0x00, c], .done .host r] }) := by
  have hfirst := runSteps_contrast_first contrast hidx free pending
  simp only [contrastContinue, if_pos hidx] at hfirst
  refine (runSteps_add (j := 2) (k := 2) hfirst).trans ?_
  refine Eq.trans (runSteps_hostWrite free (hostNextWrite_of_contrast_second contrast (show (1 : BitVec 5) ≠ 0 by decide) harg)
    rfl) ?_
  simp only [hostContinue, contrast]
  rfl

/-- Settles O46: the pair, the first write's failure, and the second's. -/
theorem contrastPairGoesOut : Obligations.ContrastPairGoesOut := by
  refine fun s c rest contrast hidx harg free => ⟨fun pending => ?_, fun pending => ?_, fun pending => ?_⟩
  · have pending : s.pending = hostWrites 1 ++ .hostIssue :: .bus .ok :: rest :=
      pending.trans (hostWrites_succ 1 rest)
    rw [runSteps_contrast_second contrast hidx harg free pending, List.append_assoc]
    rfl
  · rw [runSteps_contrast_first contrast hidx free pending]
    rfl
  · rw [runSteps_contrast_second contrast hidx harg free pending]
    rfl

end Sys2Proof.Machine
end
